-- ==== Sys2Proof/Word.lean ====
section
/-! DEFINITION. The word types of the CORE block (spec/00_scope.md R5, R7, R8; spec/10_state.md R20 to R29). -/

namespace Sys2Proof

/-- An 8-bit value: a general register, a timer, a memory location, the immediate `kk` (R20, R24, R25, R30, R91). -/
abbrev Byte := BitVec 8

/-- A 16-bit value: `I`, `pc`, a stack entry, an instruction word (R22, R23, R26, R90). -/
abbrev Word := BitVec 16

/-- The 12-bit address field `nnn` (R91). -/
abbrev Addr12 := BitVec 12

/-- The number of one of the 16 general registers V0..VF (R20). -/
abbrev RegIdx := Fin 16

/-- The number of one of the 16 keys (R28). -/
abbrev KeyIdx := Fin 16

/-- A sprite's row count, the 4-bit immediate `n` (R91, R93). -/
abbrev RowCount := Fin 16

/-- Register 15, `VF`, which doubles as the flag register (R21). -/
abbrev flagReg : RegIdx := 15

end Sys2Proof
end

