-- ==== Sys2Proof/Syntax.lean ====
section
/-! DEFINITION. The instructions: one constructor per row of spec/opcode_table.json (spec/30_encoding.md R92, R103). -/

namespace Sys2Proof

/-- The 33 instructions of R2 and the gated register copy, with the operand fields R92 gives each. -/
inductive Instr where
  /-- `CLS`, clear-screen (R210). -/
  | cls
  /-- `RET`, return (R140). -/
  | ret
  /-- `JP nnn`, jump (R141). -/
  | jp (nnn : Addr12)
  /-- `CALL nnn`, call (R142). -/
  | call (nnn : Addr12)
  /-- `SE Vx,kk`, skip-equal-immediate (R143). -/
  | seVxKk (x : RegIdx) (kk : Byte)
  /-- `SNE Vx,kk`, skip-not-equal-immediate (R144). -/
  | sneVxKk (x : RegIdx) (kk : Byte)
  /-- `SE Vx,Vy`, skip-equal-registers (R145). -/
  | seVxVy (x y : RegIdx)
  /-- `LD Vx,kk`, load-immediate (R160). -/
  | ldVxKk (x : RegIdx) (kk : Byte)
  /-- `ADD Vx,kk`, add-immediate (R161). -/
  | addVxKk (x : RegIdx) (kk : Byte)
  /-- `LD Vx,Vy`, the register copy, gated by `enableCopy8xy0` (R162). -/
  | ldVxVy (x y : RegIdx)
  /-- `OR Vx,Vy` (R163). -/
  | orVxVy (x y : RegIdx)
  /-- `AND Vx,Vy` (R164). -/
  | andVxVy (x y : RegIdx)
  /-- `XOR Vx,Vy` (R165). -/
  | xorVxVy (x y : RegIdx)
  /-- `ADD Vx,Vy` (R166). -/
  | addVxVy (x y : RegIdx)
  /-- `SUB Vx,Vy` (R167). -/
  | subVxVy (x y : RegIdx)
  /-- `SHR Vx,Vy` (R168). -/
  | shrVxVy (x y : RegIdx)
  /-- `SUBN Vx,Vy` (R169). -/
  | subnVxVy (x y : RegIdx)
  /-- `SHL Vx,Vy` (R170). -/
  | shlVxVy (x y : RegIdx)
  /-- `SNE Vx,Vy`, skip-not-equal-registers (R146). -/
  | sneVxVy (x y : RegIdx)
  /-- `LD I,nnn`, load-address (R190). -/
  | ldINnn (nnn : Addr12)
  /-- `JP V0,nnn`, jump-offset (R147). -/
  | jpV0Nnn (nnn : Addr12)
  /-- `RND Vx,kk`, random (R171). -/
  | rndVxKk (x : RegIdx) (kk : Byte)
  /-- `DRW Vx,Vy,n`, draw (R211). -/
  | drwVxVyN (x y : RegIdx) (n : RowCount)
  /-- `SKP Vx`, skip-if-key-pressed (R230). -/
  | skpVx (x : RegIdx)
  /-- `SKNP Vx`, skip-if-key-not-pressed (R231). -/
  | sknpVx (x : RegIdx)
  /-- `LD Vx,DT`, load-delay-timer (R232). -/
  | ldVxDt (x : RegIdx)
  /-- `LD Vx,K`, wait-for-key (R233). -/
  | ldVxK (x : RegIdx)
  /-- `LD DT,Vx`, store-delay-timer (R234). -/
  | ldDtVx (x : RegIdx)
  /-- `LD ST,Vx`, store-sound-timer (R235). -/
  | ldStVx (x : RegIdx)
  /-- `ADD I,Vx`, add-to-address (R191). -/
  | addIVx (x : RegIdx)
  /-- `LD F,Vx`, load-glyph-address (R192). -/
  | ldFVx (x : RegIdx)
  /-- `LD B,Vx`, store-bcd (R193). -/
  | ldBVx (x : RegIdx)
  /-- `LD [I],Vx`, block-store (R194). -/
  | ldMemIVx (x : RegIdx)
  /-- `LD Vx,[I]`, block-load (R195). -/
  | ldVxMemI (x : RegIdx)
  deriving DecidableEq, Repr

end Sys2Proof
end

