-- ==== Sys2Proof/Decode.lean ====
section
/-! DEFINITION. The decoder and the encoder (spec/30_encoding.md R90 to R100). The opcode values are the conventional
ones the spec supplies (D2, D3, G1, G2): UNVERIFIED, log entry 3. -/

namespace Sys2Proof

/-- Why bytes are no instruction: the classes (a) to (f) of R100, by the group of the word, and bytes that end before
the word does. -/
inductive Reject where
  /-- R100 (a): `0x0000`..`0x0FFF` but for `0x00E0` and `0x00EE`. -/
  | group0
  /-- R100 (b): `5xyN` with `N` not 0. -/
  | group5
  /-- R100 (c): `8xyN` with `N` in 8, 9, A, B, C, D, F. (`8xy0` decodes; its gate is `Instr.wellFormed`.) -/
  | group8
  /-- R100 (d): `9xyN` with `N` not 0. -/
  | group9
  /-- R100 (e): `Exkk` with `kk` not 0x9E or 0xA1. -/
  | groupE
  /-- R100 (f): `Fxkk` with `kk` none of the nine sub-field values of R98. -/
  | groupF
  /-- Fewer than the two bytes of a word (R90); a fetch never meets this. -/
  | tooShort
  deriving DecidableEq, Repr

/-- `op = w[15:12]` (R91). -/
def opField (w : Word) : BitVec 4 := w.extractLsb' 12 4

/-- `x = w[11:8]`, the first-register index (R91). -/
def xField (w : Word) : RegIdx := (w.extractLsb' 8 4).toFin

/-- `y = w[7:4]`, the second-register index (R91). -/
def yField (w : Word) : RegIdx := (w.extractLsb' 4 4).toFin

/-- `nnn = w[11:0]`, the 12-bit address (R91). -/
def nnnField (w : Word) : Addr12 := w.extractLsb' 0 12

/-- `kk = w[7:0]`, the 8-bit immediate and the 8-bit sub-field (R91, R97, R98). -/
def kkField (w : Word) : Byte := w.extractLsb' 0 8

/-- `n = w[3:0]`, the 4-bit immediate and the 4-bit sub-field (R91, R96, R99). -/
def nField (w : Word) : RowCount := (w.extractLsb' 0 4).toFin

/-- Group 0 matches the whole word (R95; D4). -/
def decodeGroup0 (w : Word) : Except Reject Instr :=
  if w = 0x00E0#16 then .ok .cls
  else if w = 0x00EE#16 then .ok .ret
  else .error .group0

/-- Group 8, by `w[3:0]` (R96). -/
def decodeGroup8 (w : Word) : Except Reject Instr :=
  match (nField w).val with
  | 0x0 => .ok (.ldVxVy (xField w) (yField w))
  | 0x1 => .ok (.orVxVy (xField w) (yField w))
  | 0x2 => .ok (.andVxVy (xField w) (yField w))
  | 0x3 => .ok (.xorVxVy (xField w) (yField w))
  | 0x4 => .ok (.addVxVy (xField w) (yField w))
  | 0x5 => .ok (.subVxVy (xField w) (yField w))
  | 0x6 => .ok (.shrVxVy (xField w) (yField w))
  | 0x7 => .ok (.subnVxVy (xField w) (yField w))
  | 0xE => .ok (.shlVxVy (xField w) (yField w))
  | _ => .error .group8

/-- Group E, by `w[7:0]` (R97). -/
def decodeGroupE (w : Word) : Except Reject Instr :=
  match (kkField w).toNat with
  | 0x9E => .ok (.skpVx (xField w))
  | 0xA1 => .ok (.sknpVx (xField w))
  | _ => .error .groupE

/-- Group F, by `w[7:0]` (R98). -/
def decodeGroupF (w : Word) : Except Reject Instr :=
  match (kkField w).toNat with
  | 0x07 => .ok (.ldVxDt (xField w))
  | 0x0A => .ok (.ldVxK (xField w))
  | 0x15 => .ok (.ldDtVx (xField w))
  | 0x18 => .ok (.ldStVx (xField w))
  | 0x1E => .ok (.addIVx (xField w))
  | 0x29 => .ok (.ldFVx (xField w))
  | 0x33 => .ok (.ldBVx (xField w))
  | 0x55 => .ok (.ldMemIVx (xField w))
  | 0x65 => .ok (.ldVxMemI (xField w))
  | _ => .error .groupF

/-- The decoder of one instruction word: dispatch on the top 4 bits, then on the sub-field (R94 to R99). All sixteen
values of `op` are assigned (R94); the last arm is the one value left, 0xF. -/
def decode (w : Word) : Except Reject Instr :=
  match (opField w).toNat with
  | 0x0 => decodeGroup0 w
  | 0x1 => .ok (.jp (nnnField w))
  | 0x2 => .ok (.call (nnnField w))
  | 0x3 => .ok (.seVxKk (xField w) (kkField w))
  | 0x4 => .ok (.sneVxKk (xField w) (kkField w))
  | 0x5 => if nField w = 0 then .ok (.seVxVy (xField w) (yField w)) else .error .group5
  | 0x6 => .ok (.ldVxKk (xField w) (kkField w))
  | 0x7 => .ok (.addVxKk (xField w) (kkField w))
  | 0x8 => decodeGroup8 w
  | 0x9 => if nField w = 0 then .ok (.sneVxVy (xField w) (yField w)) else .error .group9
  | 0xA => .ok (.ldINnn (nnnField w))
  | 0xB => .ok (.jpV0Nnn (nnnField w))
  | 0xC => .ok (.rndVxKk (xField w) (kkField w))
  | 0xD => .ok (.drwVxVyN (xField w) (yField w) (nField w))
  | 0xE => decodeGroupE w
  | _ => decodeGroupF w

/-- The word of two bytes, the lower-addressed one first: it is `w[15:8]` (R8, R63, R90). -/
def wordOfBytes (hi lo : Byte) : Word := hi ++ lo

/-- The first byte of a word, `w[15:8]` (R8). -/
def highByte (w : Word) : Byte := w.extractLsb' 8 8

/-- The second byte of a word, `w[7:0]` (R8). -/
def lowByte (w : Word) : Byte := w.extractLsb' 0 8

/-- The decoder on a list of bytes: the instruction and the bytes after it. Every instruction is 2 bytes (R90). -/
def decodeBytes : List Byte → Except Reject (Instr × List Byte)
  | hi :: lo :: rest =>
    match decode (wordOfBytes hi lo) with
    | .ok i => .ok (i, rest)
    | .error e => .error e
  | [_] => .error .tooShort
  | [] => .error .tooShort

/-- The word whose bits spec/opcode_table.json numbers: bit 0 is the least significant bit of the one 16-bit word, and
the bits from `nbits` on are 0. -/
def tableWord (nbits w : Nat) : Word := BitVec.ofNat 16 (w % 2 ^ nbits)

/-- The instruction the decoder reads from a table row's word, laid out in memory order (R63). -/
def decodeTableWord (nbits w : Nat) : Option Instr :=
  match decodeBytes [highByte (tableWord nbits w), lowByte (tableWord nbits w)] with
  | .ok (i, _) => some i
  | .error _ => none

/-- Format A: `op nnn` (R92). -/
def formatA (op : BitVec 4) (nnn : Addr12) : Word := op ++ nnn

/-- Format XK: `op x kk` (R92). Format X is the same word with `kk` the fixed sub-field. -/
def formatXK (op : BitVec 4) (x : RegIdx) (kk : Byte) : Word := op ++ (BitVec.ofFin x : BitVec 4) ++ kk

/-- Format XYN: `op x y n` (R92). Format XY is the same word with `n` the fixed sub-field. -/
def formatXYN (op : BitVec 4) (x y : RegIdx) (n : RowCount) : Word :=
  op ++ (BitVec.ofFin x : BitVec 4) ++ (BitVec.ofFin y : BitVec 4) ++ (BitVec.ofFin n : BitVec 4)

/-- The word of an instruction, from the encodings of R94 to R99 and opcode_table.json. -/
def encode : Instr → Word
  | .cls => 0x00E0#16
  | .ret => 0x00EE#16
  | .jp nnn => formatA 0x1#4 nnn
  | .call nnn => formatA 0x2#4 nnn
  | .seVxKk x kk => formatXK 0x3#4 x kk
  | .sneVxKk x kk => formatXK 0x4#4 x kk
  | .seVxVy x y => formatXYN 0x5#4 x y 0x0
  | .ldVxKk x kk => formatXK 0x6#4 x kk
  | .addVxKk x kk => formatXK 0x7#4 x kk
  | .ldVxVy x y => formatXYN 0x8#4 x y 0x0
  | .orVxVy x y => formatXYN 0x8#4 x y 0x1
  | .andVxVy x y => formatXYN 0x8#4 x y 0x2
  | .xorVxVy x y => formatXYN 0x8#4 x y 0x3
  | .addVxVy x y => formatXYN 0x8#4 x y 0x4
  | .subVxVy x y => formatXYN 0x8#4 x y 0x5
  | .shrVxVy x y => formatXYN 0x8#4 x y 0x6
  | .subnVxVy x y => formatXYN 0x8#4 x y 0x7
  | .shlVxVy x y => formatXYN 0x8#4 x y 0xE
  | .sneVxVy x y => formatXYN 0x9#4 x y 0x0
  | .ldINnn nnn => formatA 0xA#4 nnn
  | .jpV0Nnn nnn => formatA 0xB#4 nnn
  | .rndVxKk x kk => formatXK 0xC#4 x kk
  | .drwVxVyN x y n => formatXYN 0xD#4 x y n
  | .skpVx x => formatXK 0xE#4 x 0x9E#8
  | .sknpVx x => formatXK 0xE#4 x 0xA1#8
  | .ldVxDt x => formatXK 0xF#4 x 0x07#8
  | .ldVxK x => formatXK 0xF#4 x 0x0A#8
  | .ldDtVx x => formatXK 0xF#4 x 0x15#8
  | .ldStVx x => formatXK 0xF#4 x 0x18#8
  | .addIVx x => formatXK 0xF#4 x 0x1E#8
  | .ldFVx x => formatXK 0xF#4 x 0x29#8
  | .ldBVx x => formatXK 0xF#4 x 0x33#8
  | .ldMemIVx x => formatXK 0xF#4 x 0x55#8
  | .ldVxMemI x => formatXK 0xF#4 x 0x65#8

end Sys2Proof
end

