-- ==== Sys2Proof/Config.lean ====
section
/-! DEFINITION. What an implementation fixes and the free values: the named parameters of spec/00_scope.md R6. -/

namespace Sys2Proof

/-- Which register SHR and SHL read as their source register: the parameter `shiftSource` (R6, R168, R170; D7). -/
inductive ShiftSource where
  | y
  | x
  deriving DecidableEq, Repr

/-- The named parameters of R6 but for the per-step random byte. They are fixed for a machine. DESIGN CHOICE (log
entry 1): the state carries them, so that one `exec` gives the meaning at every setting, and no operation writes them. -/
structure Config where
  /-- SHL's flag is bit 7 of its source (`true`) or bit 0 (`false`) (R170; D8). -/
  strictShiftSemantics : Bool
  /-- The source register of SHR and SHL (R168, R170; D7). -/
  shiftSource : ShiftSource
  /-- Whether word `8xy0` is the register copy or an UnhandledInstruction (R162; D5). -/
  enableCopy8xy0 : Bool
  /-- The bytes that reset seeds at 0x000..0x04F: 16 glyphs of 5 bytes (R31; D21). -/
  glyphTable : Vector Byte 80
  deriving DecidableEq, Repr

/-- The parameter `randomByte`: the free 8-bit input of the RND step numbered `k` (R6, R171; D18; log entry 2).
It has no body: nothing constrains it, and a statement about it holds for every value. -/
opaque Config.randomByte (k : Nat) : Byte

end Sys2Proof
end

