-- ==== Sys2Proof/Machine/State.lean ====
section
/-! DEFINITION. The machine's state as plain data, the reasons a step can stop, and the state after reset
(spec/10_state.md, spec/60_exceptions.md section 1). -/

namespace Sys2Proof.Machine

/-- The cells of `mem` whose byte is not what an unlisted address reads as, addresses strictly rising (R30). -/
abbrev Memory := List Host.Cell

/-- The display buffer: row `cy` holds its 64 cells, column `cx` at bit `cx`; a 1 is lit (R32, R212; log entry 26). -/
abbrev Display := Vector (BitVec 64) 64

/-- The whole state of the block (10_state.md, opening tuple), and the model's own two fields, `config` and `draws`. -/
structure State where
  /-- The general registers V0..VF (R20); VF is also the flag register (R21). -/
  v : Vector Byte 16
  /-- The address register `I` (R22). -/
  i : Word
  /-- The program counter (R23). -/
  pc : Word
  /-- The delay timer `DT` (R24). -/
  dt : Byte
  /-- The sound timer `ST` (R25). -/
  st : Byte
  /-- The call stack (R26). -/
  stack : Vector Word 16
  /-- The number of live stack entries, 0 to 16 (R27). -/
  sp : Fin 17
  /-- The key states, `true` for pressed (R28). -/
  key : Vector Bool 16
  /-- The awaiting-key flag (R29). -/
  waiting : Bool
  /-- The register the next key press goes to (R29). -/
  waitreg : RegIdx
  /-- The 4096-byte memory (R30). -/
  mem : Memory
  /-- The display buffer (R32). -/
  disp : Display
  /-- The parameters of R6; no operation writes them (log entry 1). -/
  config : Config
  /-- How many random bytes have been drawn, the index of the next one (log entry 2). -/
  draws : Nat
  deriving DecidableEq, Repr

/-- The fatal errors, all four and no other (R250). A fault is raised before any write, so the state of the machine is
the one the operation began with, and the run is over (R256, R257; log entry 22). Safe: the spec has the errored block
do nothing more before a reset. -/
inductive Fault where
  /-- Raised by RET when `sp = 0`, and by nothing else (R251). Safe. -/
  | stackUnderflow
  /-- Raised by CALL when `sp = 16`, and by nothing else (R252). Safe. -/
  | stackOverflow
  /-- Raised by `step` when the fetched word `w` is illegal, `8xy0` with the copy disabled among them, and by nothing
  else (R253, R100). Safe: where the real block should accept the word, the model only stops. -/
  | unhandledInstruction (w : Word)
  /-- Raised by `load` on an image of more than 3584 bytes, and by nothing else (R254). Safe. -/
  | loadOverflow
  deriving DecidableEq, Repr

/-- Why an instruction has no meaning here. No operation of this model refuses. -/
inductive Refusal where
  /-- The instruction of this mnemonic is not modelled yet: raised by `exec` alone. Safe. -/
  | notModelled (mnemonic : String)
  deriving DecidableEq, Repr

/-- The state at power-on with the parameters `c` (R301, R36): every register, timer, key and display cell zero, the
stack empty, `pc` at 0x200 and no memory cell listed, so that memory reads as the glyph table and zeros. `draws` is
the model's (DESIGN CHOICE, log entry 2). -/
def State.powerOn (c : Config) : State where
  v := Vector.replicate 16 0
  i := 0
  pc := 0x200
  dt := 0
  st := 0
  stack := Vector.replicate 16 0
  sp := 0
  key := Vector.replicate 16 false
  waiting := false
  waitreg := 0
  mem := []
  disp := Vector.replicate 64 0
  config := c
  draws := 0

/-- The machine right after reset, the parameters at their defaults (R36, R6). -/
def State.reset : State := State.powerOn defaultConfig

end Sys2Proof.Machine
end

