-- ==== Sys2Proof/Machine/Ops.lean ====
section
/-! DEFINITION. The named operations over memory, registers, program counter, stack and display, the raising of a fatal
error, and the fetch of an instruction (spec/20_memory.md, spec/40_step_cycle.md, spec/60_exceptions.md section 1). -/

namespace Sys2Proof.Machine

/-! ### Memory -/

/-- What an address that no cell lists reads as: the contents after power-on, the glyph table `g` at 0x000..0x04F and 0
elsewhere (R36, R67, R301; 0x050..0x1FF by D20, log entry 19). -/
def Memory.unlisted (g : Vector Byte 80) (a : Nat) : Byte :=
  if h : a < 80 then g[a] else 0

/-- The byte at address `a`. -/
def Memory.read (g : Vector Byte 80) : Memory → Nat → Byte
  | [], a => Memory.unlisted g a
  | (k, b) :: m, a => if a = k then b else Memory.read g m a

/-- The memory without a cell for `a`. -/
def Memory.erase (a : Nat) (m : Memory) : Memory := m.filter fun c => c.1 ≠ a

/-- The memory with the cell `(a, b)` put in before the first higher address. -/
def Memory.insert (a : Nat) (b : Byte) : Memory → Memory
  | [] => [(a, b)]
  | (k, c) :: m => if a < k then (a, b) :: (k, c) :: m else (k, c) :: Memory.insert a b m

/-- The memory with byte `b` at address `a`; a byte that an unlisted address reads as anyway is not listed. -/
def Memory.write (g : Vector Byte 80) (m : Memory) (a : Nat) (b : Byte) : Memory :=
  if b = Memory.unlisted g a then Memory.erase a m else Memory.insert a b (Memory.erase a m)

/-- The canonical form from address `lo` on: addresses strictly rising and inside the 4096 bytes, no cell equal to what
an unlisted address reads as. -/
def Memory.wfFrom (g : Vector Byte 80) : Nat → Memory → Bool
  | _, [] => true
  | lo, (k, b) :: m =>
    decide (lo ≤ k) && decide (k < 4096) && decide (b ≠ Memory.unlisted g k) && Memory.wfFrom g (k + 1) m

/-- Memory is in canonical form. -/
def Memory.wf (g : Vector Byte 80) (m : Memory) : Bool := Memory.wfFrom g 0 m

/-- The 12-bit reduction of an address at the point of access (R60, R62). -/
def memIndex (a : Nat) : Nat := a % 4096

/-- `MemRead(a, 1)` (R60). -/
def readByte (a : Nat) (s : State) : Byte := s.mem.read s.config.glyphTable (memIndex a)

/-- `MemWrite(a, 1, b)` (R61). -/
def writeByte (a : Nat) (b : Byte) (s : State) : State :=
  { s with mem := s.mem.write s.config.glyphTable (memIndex a) b }

/-- Byte after byte at ascending addresses from `a`, each reduced on its own (R62, R63). -/
def writeBytes (a : Nat) : List Byte → State → State
  | [], s => s
  | b :: bs, s => writeBytes (a + 1) bs (writeByte a b s)

/-! ### Registers -/

/-- `V[x]` (R20). -/
def getReg (x : RegIdx) (s : State) : Byte := s.v[x]

/-- `V[x] <- b` (R20). -/
def setReg (x : RegIdx) (b : Byte) (s : State) : State := { s with v := s.v.set x b }

/-- `I <- w` (R22). -/
def setI (w : Word) (s : State) : State := { s with i := w }

/-- `DT <- b` (R24). -/
def setDt (b : Byte) (s : State) : State := { s with dt := b }

/-- `ST <- b` (R25). -/
def setSt (b : Byte) (s : State) : State := { s with st := b }

/-- The awaiting-key flag set with its target register (R29). -/
def beginWait (x : RegIdx) (s : State) : State := { s with waiting := true, waitreg := x }

/-! ### Program counter (R125) -/

/-- `pc <- w`. -/
def setPc (w : Word) (s : State) : State := { s with pc := w }

/-- `pc <- (pc + 2) mod 65536` (R125; D11). -/
def nextPc (s : State) : State := setPc (s.pc + 2) s

/-- `pc <- (pc + 4) mod 65536` if the condition holds, else `(pc + 2) mod 65536` (R125; D11). -/
def skipIf (c : Bool) (s : State) : State := setPc (if c then s.pc + 4 else s.pc + 2) s

/-! ### Call stack (R26, R27) -/

/-- The stack with `w` pushed, or nothing when it is full (R142). -/
def pushReturn (w : Word) (s : State) : Option State :=
  if h : s.sp.val < 16 then some { s with stack := s.stack.set s.sp.val w, sp := ⟨s.sp.val + 1, by omega⟩ } else none

/-- The popped entry and the stack without it, or nothing when it is empty; the entry itself stays, dead (R140, R26). -/
def popReturn (s : State) : Option (Word × State) :=
  if h : 0 < s.sp.val then
    some (s.stack[s.sp.val - 1], { s with sp := ⟨s.sp.val - 1, by omega⟩ })
  else none

/-! ### Display (R32, R69, R212, R213) -/

/-- The index of the cell at column `cx` and row `cy`, neither reduced (R212). -/
def cellIndex (cx cy : Nat) : Nat := 64 * cy + cx

/-- Whether cell `j` is lit; an index past the buffer is no cell (R32, R69). -/
def Display.lit (d : Display) (j : Nat) : Bool :=
  if h : j < 4096 then (d[j / 64]'(by omega)).getLsbD (j % 64) else false

/-- The display with cell `j` inverted; an index past the buffer changes nothing (R213; D14). -/
def Display.toggle (d : Display) (j : Nat) : Display :=
  if h : j < 4096 then
    d.set (j / 64) (d[j / 64]'(by omega) ^^^ BitVec.twoPow 64 (j % 64)) (by omega)
  else d

/-- The display with every cell unlit (R210). -/
def Display.blank : Display := Vector.replicate 64 0

/-- The display replaced. -/
def setDisp (d : Display) (s : State) : State := { s with disp := d }

/-! ### Random source (R171, R270; log entry 2) -/

/-- The random byte of this step. -/
def randomDraw (s : State) : Byte := Config.randomByte s.draws

/-- The next draw takes a fresh byte. -/
def advanceDraws (s : State) : State := { s with draws := s.draws + 1 }

/-! ### Fatal errors (R250, R256) -/

/-- `raise E`: the operation ends with the fatal error and no write. There is no trap entry: no handler, no saved
state, no mode change (R256), and no return from one (R258). -/
def raise (f : Fault) : Host.Outcome State Fault Refusal := .fault f

/-! ### Fetch and decode (R121 to R123) -/

/-- The suspension check at the top of `step` (R121). -/
def suspended (s : State) : Bool := s.waiting

/-- The word at `pc`: two bytes, each address reduced on its own, the first the high one (R122, R63, R90). -/
def fetchWord (s : State) : Word := wordOfBytes (readByte s.pc.toNat s) (readByte (s.pc.toNat + 1) s)

/-- The instruction of the fetched word, or the error an illegal word raises (R123, R253). -/
def fetchInstr (s : State) : Except Fault Instr :=
  match decode (fetchWord s) with
  | .ok i => .ok i
  | .error _ => .error (.unhandledInstruction (fetchWord s))

end Sys2Proof.Machine
end

