-- ==== Sys2Proof/Machine/Operands.lean ====
section
/-! DEFINITION. The operand forms: immediates, effective addresses, the shifts' source, key numbers, register blocks and
sprites (spec/30_encoding.md R93, spec/43_address_memory.md R196, spec/44_display.md R211 to R213). -/

namespace Sys2Proof.Machine

/-- `zext_16(nnn)` (R93). -/
def addrOperand (nnn : Addr12) : Word := nnn.zeroExtend 16

/-- `zext_16(V[x])` (R147, R191, R192). -/
def regAsWord (x : RegIdx) (s : State) : Word := (getReg x s).zeroExtend 16

/-- `I + k` before its reduction modulo 4096 at the access (R196, R62). -/
def effectiveAddr (s : State) (k : Nat) : Nat := s.i.toNat + k

/-- The source register of SHR and SHL, by the parameter `shiftSource` (R168, R170; D7, log entry 7). -/
def shiftOperand (x y : RegIdx) (s : State) : Byte :=
  match s.config.shiftSource with
  | .y => getReg y s
  | .x => getReg x s

/-- The key that the low 4 bits of `V[x]` name (R230). -/
def keyOperand (x : RegIdx) (s : State) : KeyIdx := ((getReg x s).extractLsb' 0 4).toFin

/-- The state of the key that `V[x]` names (R230, R231). -/
def keyPressed (x : RegIdx) (s : State) : Bool := s.key[keyOperand x s]

/-- `V[0], ..., V[x]`, inclusive of `x` (R194). -/
def regBlock (x : RegIdx) (s : State) : List Byte := s.v.toList.take (x.val + 1)

/-- `V[j] <- MemRead(I + j, 1)` for `j` = 0 to `x`; the order is not observable (R195). -/
def loadRegBlock (x : RegIdx) (s : State) : State :=
  { s with v := Vector.ofFn fun j => if j ≤ x then readByte (effectiveAddr s j.val) s else getReg j s }

/-- The decimal digits of a byte: hundreds, tens, ones (R193). -/
def bcdDigits (b : Byte) : List Byte :=
  [BitVec.ofNat 8 (b.toNat / 100), BitVec.ofNat 8 (b.toNat / 10 % 10), BitVec.ofNat 8 (b.toNat % 10)]

/-- The columns 0..7 of a sprite byte whose bit is 1; bit 7 is column 0 (R211 (b); D13, log entry 13). -/
def setColumns (b : Byte) : List Nat := (List.range 8).filter fun c => b.getLsbD (7 - c)

/-- The cell indices that sprite row `r` of a draw at column `vx`, row `vy` covers, unreduced (R211, R212). -/
def spriteRow (vx vy r : Nat) (s : State) : List Nat :=
  (setColumns (readByte (effectiveAddr s r) s)).map fun c => cellIndex (vx + c) (vy + r)

/-- The cell indices that an `n`-row sprite covers, rows then columns ascending (R211). -/
def spriteCells (vx vy n : Nat) (s : State) : List Nat := (List.range n).flatMap fun r => spriteRow vx vy r s

/-- One set sprite bit at cell `j`: the collision so far and whether the cell was lit, then the cell inverted. An index
past the buffer does neither (R211, R213, R214). -/
def plot (p : Display × Bool) (j : Nat) : Display × Bool := (p.1.toggle j, p.2 || p.1.lit j)

/-- The whole blit: the display after it and whether any lit cell went dark (R211). -/
def blit (cells : List Nat) (d : Display) : Display × Bool := cells.foldl plot (d, false)

end Sys2Proof.Machine
end

