-- ==== Sys2Proof/Machine/AddressMemory.lean ====
section
/-! DEFINITION. The address-register and memory instructions (spec/43_address_memory.md). None but the first three
writes `I` (R196; D15, log entry 15). -/

namespace Sys2Proof.Machine

/-- LD I,nnn (R190). -/
def execLdINnn (nnn : Addr12) (s : State) : Host.Outcome State Fault Refusal :=
  .next (nextPc (setI (addrOperand nnn) s))

/-- ADD I,Vx: modulo 65536, no flag (R191). -/
def execAddIVx (x : RegIdx) (s : State) : Host.Outcome State Fault Refusal :=
  .next (nextPc (setI (s.i + regAsWord x s) s))

/-- LD F,Vx: 5 times the whole register value (R192; D17, log entry 17). -/
def execLdFVx (x : RegIdx) (s : State) : Host.Outcome State Fault Refusal :=
  .next (nextPc (setI (5 * regAsWord x s) s))

/-- LD B,Vx: three decimal digits at I, I+1, I+2 (R193). -/
def execLdBVx (x : RegIdx) (s : State) : Host.Outcome State Fault Refusal :=
  .next (nextPc (writeBytes (effectiveAddr s 0) (bcdDigits (getReg x s)) s))

/-- LD [I],Vx: `V[0..x]` to memory from I (R194). -/
def execLdMemIVx (x : RegIdx) (s : State) : Host.Outcome State Fault Refusal :=
  .next (nextPc (writeBytes (effectiveAddr s 0) (regBlock x s) s))

/-- LD Vx,[I]: memory from I to `V[0..x]` (R195). -/
def execLdVxMemI (x : RegIdx) (s : State) : Host.Outcome State Fault Refusal :=
  .next (nextPc (loadRegBlock x s))

end Sys2Proof.Machine
end

