-- ==== Sys2Proof/Machine/Flags.lean ====
section
/-! DEFINITION. The values VF takes as a flag (spec/10_state.md R21, spec/42_alu.md R166 to R170, R173). -/

namespace Sys2Proof.Machine

/-- A flag as the 8-bit value 0 or 1 (R21). -/
def flagByte (c : Bool) : Byte := if c then 1 else 0

/-- ADD: the unmodulated sum exceeds 255 (R166). -/
def addFlag (a b : Byte) : Bool := decide (a.toNat + b.toNat > 255)

/-- SUB: the first operand is greater than the second, unsigned and strictly (R167). SUBN is the same with the operands
reversed (R169). -/
def subFlag (a b : Byte) : Bool := decide (a.toNat > b.toNat)

/-- SHR: bit 0 of the source operand (R168). -/
def shrFlag (b : Byte) : Bool := b.getLsbD 0

/-- SHL: bit 7 of the source operand, or bit 0 when `strictShiftSemantics` is off (R170; D8, log entry 8). -/
def shlFlag (c : Config) (b : Byte) : Bool := if c.strictShiftSemantics then b.getLsbD 7 else b.getLsbD 0

/-- The two writes of ADD, SUB, SUBN, SHR and SHL: the flag to VF, then the result to `V[x]`, so that with `x = 15` the
result is what remains (R173; D9, log entry 9). -/
def setFlagAndReg (x : RegIdx) (flag : Bool) (result : Byte) (s : State) : State :=
  setReg x result (setReg flagReg (flagByte flag) s)

end Sys2Proof.Machine
end

