-- ==== Sys2Proof/Machine/Alu.lean ====
section
/-! DEFINITION. The register load, arithmetic, logic, shift and random instructions (spec/42_alu.md). Every operand is
read from the state the step began with (R174), and every one ends with `pc + 2`. -/

namespace Sys2Proof.Machine

/-- LD Vx,kk (R160). -/
def execLdVxKk (x : RegIdx) (kk : Byte) (s : State) : Host.Outcome State Fault Refusal :=
  .next (nextPc (setReg x kk s))

/-- ADD Vx,kk: modulo 256, no flag (R161). -/
def execAddVxKk (x : RegIdx) (kk : Byte) (s : State) : Host.Outcome State Fault Refusal :=
  .next (nextPc (setReg x (getReg x s + kk) s))

/-- LD Vx,Vy: the copy where `enableCopy8xy0` is set, an illegal word elsewhere (R162, R100 (c); D5, log entry 5). -/
def execLdVxVy (x y : RegIdx) (s : State) : Host.Outcome State Fault Refusal :=
  if (Instr.ldVxVy x y).wellFormed s.config then .next (nextPc (setReg x (getReg y s) s))
  else raise (.unhandledInstruction (encode (.ldVxVy x y)))

/-- OR Vx,Vy: VF is not written as a flag (R163; D6, log entry 6). -/
def execOrVxVy (x y : RegIdx) (s : State) : Host.Outcome State Fault Refusal :=
  .next (nextPc (setReg x (getReg x s ||| getReg y s) s))

/-- AND Vx,Vy: VF is not written as a flag (R164; D6, log entry 6). -/
def execAndVxVy (x y : RegIdx) (s : State) : Host.Outcome State Fault Refusal :=
  .next (nextPc (setReg x (getReg x s &&& getReg y s) s))

/-- XOR Vx,Vy: VF is not written as a flag (R165; D6, log entry 6). -/
def execXorVxVy (x y : RegIdx) (s : State) : Host.Outcome State Fault Refusal :=
  .next (nextPc (setReg x (getReg x s ^^^ getReg y s) s))

/-- ADD Vx,Vy (R166). -/
def execAddVxVy (x y : RegIdx) (s : State) : Host.Outcome State Fault Refusal :=
  .next (nextPc (setFlagAndReg x (addFlag (getReg x s) (getReg y s)) (getReg x s + getReg y s) s))

/-- SUB Vx,Vy (R167). -/
def execSubVxVy (x y : RegIdx) (s : State) : Host.Outcome State Fault Refusal :=
  .next (nextPc (setFlagAndReg x (subFlag (getReg x s) (getReg y s)) (getReg x s - getReg y s) s))

/-- SHR Vx,Vy: a logical shift right by one (R168). -/
def execShrVxVy (x y : RegIdx) (s : State) : Host.Outcome State Fault Refusal :=
  .next (nextPc (setFlagAndReg x (shrFlag (shiftOperand x y s)) (shiftOperand x y s >>> 1) s))

/-- SUBN Vx,Vy: SUB with the operands reversed, into `Vx` (R169). -/
def execSubnVxVy (x y : RegIdx) (s : State) : Host.Outcome State Fault Refusal :=
  .next (nextPc (setFlagAndReg x (subFlag (getReg y s) (getReg x s)) (getReg y s - getReg x s) s))

/-- SHL Vx,Vy: a shift left by one (R170). -/
def execShlVxVy (x y : RegIdx) (s : State) : Host.Outcome State Fault Refusal :=
  .next (nextPc (setFlagAndReg x (shlFlag s.config (shiftOperand x y s)) (shiftOperand x y s <<< 1) s))

/-- RND Vx,kk: a free byte masked with `kk` (R171; D18, log entry 2). -/
def execRndVxKk (x : RegIdx) (kk : Byte) (s : State) : Host.Outcome State Fault Refusal :=
  .next (nextPc (setReg x (randomDraw s &&& kk) (advanceDraws s)))

end Sys2Proof.Machine
end

