-- ==== Sys2Proof/Machine/ControlFlow.lean ====
section
/-! DEFINITION. The control-transfer instructions (spec/41_control_flow.md). -/

namespace Sys2Proof.Machine

/-- RET: the popped entry is the address of the CALL, so control resumes 2 past it; StackUnderflow on an empty stack
(R140; D10, log entry 10). -/
def execRet (s : State) : Host.Outcome State Fault Refusal :=
  match popReturn s with
  | some (w, t) => .next (setPc (w + 2) t)
  | none => raise .stackUnderflow

/-- JP nnn (R141). -/
def execJp (nnn : Addr12) (s : State) : Host.Outcome State Fault Refusal :=
  .next (setPc (addrOperand nnn) s)

/-- CALL nnn: its own address is pushed; StackOverflow on a full stack (R142; D10, log entry 10). -/
def execCall (nnn : Addr12) (s : State) : Host.Outcome State Fault Refusal :=
  match pushReturn s.pc s with
  | some t => .next (setPc (addrOperand nnn) t)
  | none => raise .stackOverflow

/-- SE Vx,kk (R143). -/
def execSeVxKk (x : RegIdx) (kk : Byte) (s : State) : Host.Outcome State Fault Refusal :=
  .next (skipIf (getReg x s == kk) s)

/-- SNE Vx,kk (R144). -/
def execSneVxKk (x : RegIdx) (kk : Byte) (s : State) : Host.Outcome State Fault Refusal :=
  .next (skipIf (getReg x s != kk) s)

/-- SE Vx,Vy (R145). -/
def execSeVxVy (x y : RegIdx) (s : State) : Host.Outcome State Fault Refusal :=
  .next (skipIf (getReg x s == getReg y s) s)

/-- SNE Vx,Vy (R146). -/
def execSneVxVy (x y : RegIdx) (s : State) : Host.Outcome State Fault Refusal :=
  .next (skipIf (getReg x s != getReg y s) s)

/-- JP V0,nnn: the sum keeps all 16 bits (R147; D11, log entry 11). -/
def execJpV0Nnn (nnn : Addr12) (s : State) : Host.Outcome State Fault Refusal :=
  .next (setPc (addrOperand nnn + regAsWord 0 s) s)

end Sys2Proof.Machine
end

