-- ==== Sys2Proof/Machine/DisplayInstrs.lean ====
section
/-! DEFINITION. The display instructions (spec/44_display.md). -/

namespace Sys2Proof.Machine

/-- CLS (R210). -/
def execCls (s : State) : Host.Outcome State Fault Refusal :=
  .next (nextPc (setDisp Display.blank s))

/-- The blit of DRW: the coordinates and the sprite bytes are those of the state the step began with (R211 (a); D13,
log entry 13). -/
def drawBlit (x y : RegIdx) (n : RowCount) (s : State) : Display × Bool :=
  blit (spriteCells (getReg x s).toNat (getReg y s).toNat n.val s) s.disp

/-- DRW Vx,Vy,n: XOR of the sprite at I into the display, VF the collision (R211 to R214). -/
def execDrwVxVyN (x y : RegIdx) (n : RowCount) (s : State) : Host.Outcome State Fault Refusal :=
  .next (nextPc (setReg flagReg (flagByte (drawBlit x y n s).2) (setDisp (drawBlit x y n s).1 s)))

end Sys2Proof.Machine
end

