-- ==== Sys2Proof/Machine/KeypadTimers.lean ====
section
/-! DEFINITION. The keypad and timer instructions (spec/45_keypad_timers.md). -/

namespace Sys2Proof.Machine

/-- SKP Vx (R230). -/
def execSkpVx (x : RegIdx) (s : State) : Host.Outcome State Fault Refusal :=
  .next (skipIf (keyPressed x s) s)

/-- SKNP Vx (R231). -/
def execSknpVx (x : RegIdx) (s : State) : Host.Outcome State Fault Refusal :=
  .next (skipIf (!keyPressed x s) s)

/-- LD Vx,DT (R232). -/
def execLdVxDt (x : RegIdx) (s : State) : Host.Outcome State Fault Refusal :=
  .next (nextPc (setReg x s.dt s))

/-- LD Vx,K: the wait begins and `pc` advances; the register is written by the key event (R233; D12, log entry 12). -/
def execLdVxK (x : RegIdx) (s : State) : Host.Outcome State Fault Refusal :=
  .next (nextPc (beginWait x s))

/-- LD DT,Vx (R234). -/
def execLdDtVx (x : RegIdx) (s : State) : Host.Outcome State Fault Refusal :=
  .next (nextPc (setDt (getReg x s) s))

/-- LD ST,Vx (R235). -/
def execLdStVx (x : RegIdx) (s : State) : Host.Outcome State Fault Refusal :=
  .next (nextPc (setSt (getReg x s) s))

end Sys2Proof.Machine
end

