-- ==== Sys2Proof/Machine/Step.lean ====
section
/-! DEFINITION. One `step()`: suspension check, fetch, decode, execute (spec/40_step_cycle.md R120 to R127). -/

namespace Sys2Proof.Machine

/-- `step()`: a suspended step changes nothing (R121); otherwise the word at `pc` is fetched and decoded (R122, R123)
and its instruction executed (R124), or the fatal error raised. -/
def step (s : State) : Host.Outcome State Fault Refusal :=
  if suspended s then .next s
  else
    match fetchInstr s with
    | .ok i => exec i s
    | .error f => raise f

/-- The state with a table row's word stored where `step` fetches next, and not suspended, so that the next step runs it
(log entry 25). -/
def State.withFetchWord (s : State) (nbits w : Nat) : State :=
  writeBytes s.pc.toNat [highByte (tableWord nbits w), lowByte (tableWord nbits w)] { s with waiting := false }

end Sys2Proof.Machine
end

