-- ==== Sys2Proof/Machine/HostEvents.lean ====
section
/-! DEFINITION. The host's operations other than `step` and its read-outs (spec/60_exceptions.md sections 3 and 5,
spec/70_reset_and_hazards.md sections 1 and 2). -/

namespace Sys2Proof.Machine

/-- A timer one tick later, floored at 0 (R262). -/
def countDown (t : Byte) : Byte := if t = 0 then 0 else t - 1

/-- `tick()` (R262). -/
def tick (s : State) : State := setSt (countDown s.st) (setDt (countDown s.dt) s)

/-- `key[k] <- p` (R28). -/
def latchKey (k : KeyIdx) (p : Bool) (s : State) : State := { s with key := s.key.set k p }

/-- `V[waitreg] <- zext_8(k)`, `waiting <- 0` (R263). -/
def resolveWait (k : KeyIdx) (s : State) : State :=
  { setReg s.waitreg (BitVec.ofNat 8 k.val) s with waiting := false }

/-- `setKey(k, p)`: a duplicate does nothing; a fresh press resolves a wait (R263). A key outside 0..15 cannot be named
(D24, log entry 23). -/
def setKey (k : KeyIdx) (p : Bool) (s : State) : State :=
  if s.key[k] = p then s
  else if p && s.waiting then resolveWait k (latchKey k p s)
  else latchKey k p s

/-- `keyState(k)` (R264). -/
def keyState (k : KeyIdx) (s : State) : Bool := s.key[k]

/-- `getDisplay()`: the cells 0..4095 (R268). -/
def getDisplay (s : State) : Display := s.disp

/-- `getSoundTimer()` (R269). -/
def getSoundTimer (s : State) : Byte := s.st

/-- The memory that `reset()` leaves: the glyph table re-seeded, 0x200..0xFFF zeroed, 0x050..0x1FF kept (R300). Only
cells of the kept range stay listed, since the others then read as an unlisted address does. -/
def resetMemory (m : Memory) : Memory := m.filter fun c => decide (80 ≤ c.1) && decide (c.1 < 0x200)

/-- `reset()` (R300). The parameters are no state, and the count of draws goes on, so that no random byte comes twice
(log entry 27). -/
def resetOp (s : State) : State :=
  { State.powerOn s.config with mem := resetMemory s.mem, draws := s.draws }

/-- The longest image, 0x1000 - 0x200 (R305). -/
def maxImage : Nat := 3584

/-- `load(bytes)`: LoadOverflow before any write, else reset and the image from 0x200 (R304, R305; D22, log
entry 21). -/
def load (image : List Byte) (s : State) : Host.Outcome State Fault Refusal :=
  if image.length > maxImage then raise .loadOverflow else .next (writeBytes 0x200 image (resetOp s))

end Sys2Proof.Machine
end

