-- ==== Sys2Proof/Machine/Session.lean ====
section
/-! DEFINITION. The block under its host: the operations on one timeline (spec/60_exceptions.md R261,
spec/20_memory.md R71). -/

namespace Sys2Proof.Machine

/-- The five operations that change the state (R261). -/
inductive HostOp where
  /-- `step()` (R120). -/
  | step
  /-- `tick()` (R262). -/
  | tick
  /-- `setKey(k, pressed)` (R263). -/
  | setKey (k : KeyIdx) (pressed : Bool)
  /-- `load(bytes)` (R304). -/
  | load (image : List Byte)
  /-- `reset()` (R300). -/
  | reset
  deriving DecidableEq, Repr

/-- One operation, whole or not at all (R10). -/
def perform (op : HostOp) (s : State) : Host.Outcome State Fault Refusal :=
  match op with
  | .step => step s
  | .tick => .next (tick s)
  | .setKey k p => .next (setKey k p s)
  | .load image => load image s
  | .reset => .next (resetOp s)

/-- A sequence of operations in the host's order, ended by the first fatal error (R71, R257; log entry 22). -/
def session : List HostOp → State → Host.Outcome State Fault Refusal
  | [], s => .next s
  | op :: ops, s =>
    match perform op s with
    | .next t => session ops t
    | .fault f => .fault f
    | .refused r => .refused r

end Sys2Proof.Machine
end

