-- ==== Sys2Proof/Safety.lean ====
section
/-! DEFINITION. What the statements call unchanged, canonical and finished (spec/10_state.md R34,
spec/70_reset_and_hazards.md R307). -/

namespace Sys2Proof.Machine

/-- The invariant of every operation: memory in canonical form, the model's own (DESIGN CHOICE, log entry 19). The
ranges of R34 are the field types. -/
def Inv (s : State) : Prop := Memory.wf s.config.glyphTable s.mem = true

/-- Every byte of memory reads as before. -/
def SameMemory (s t : State) : Prop := ∀ a, readByte a t = readByte a s

/-- Every general register holds what it held. -/
def SameRegs (s t : State) : Prop := ∀ z, getReg z t = getReg z s

/-- Every general register but those `p` names holds what it held. -/
def SameRegsBut (p : RegIdx → Prop) (s t : State) : Prop := ∀ z, ¬ p z → getReg z t = getReg z s

/-- Both timers hold what they held. -/
def SameTimers (s t : State) : Prop := t.dt = s.dt ∧ t.st = s.st

/-- The call stack and its pointer are as before. -/
def SameStack (s t : State) : Prop := t.stack = s.stack ∧ t.sp = s.sp

/-- The key latch, the awaiting flag and its target are as before. -/
def SameLatch (s t : State) : Prop := t.key = s.key ∧ t.waiting = s.waiting ∧ t.waitreg = s.waitreg

/-- Every display cell is as before. -/
def SameDisplay (s t : State) : Prop := ∀ j, t.disp.lit j = s.disp.lit j

/-- The model's own two fields, the parameters and the count of draws, are as before (log entries 1 and 2). -/
def SameInputs (s t : State) : Prop := t.config = s.config ∧ t.draws = s.draws

/-- Nothing but general registers and `pc` differs. -/
def OnlyRegsAndPc (s t : State) : Prop :=
  t.i = s.i ∧ SameTimers s t ∧ SameStack s t ∧ SameLatch s t ∧ SameMemory s t ∧ SameDisplay s t ∧ SameInputs s t

/-- Nothing but `pc` differs. -/
def OnlyPc (s t : State) : Prop := SameRegs s t ∧ OnlyRegsAndPc s t

/-- Nothing but `I` and `pc` differs. -/
def OnlyIAndPc (s t : State) : Prop :=
  SameRegs s t ∧ SameTimers s t ∧ SameStack s t ∧ SameLatch s t ∧ SameMemory s t ∧ SameDisplay s t ∧ SameInputs s t

/-- Nothing but bytes of memory and `pc` differs. -/
def OnlyMemoryAndPc (s t : State) : Prop :=
  SameRegs s t ∧ t.i = s.i ∧ SameTimers s t ∧ SameStack s t ∧ SameLatch s t ∧ SameDisplay s t ∧ SameInputs s t

/-- Nothing but the call stack and `pc` differs. -/
def OnlyStackAndPc (s t : State) : Prop :=
  SameRegs s t ∧ t.i = s.i ∧ SameTimers s t ∧ SameLatch s t ∧ SameMemory s t ∧ SameDisplay s t ∧ SameInputs s t

/-- Nothing but display cells and `pc` differs. -/
def OnlyDisplayAndPc (s t : State) : Prop :=
  SameRegs s t ∧ t.i = s.i ∧ SameTimers s t ∧ SameStack s t ∧ SameLatch s t ∧ SameMemory s t ∧ SameInputs s t

/-- `pc` is `k` past the old one, in 16 bits (R125; the wrap is the spec's decision D11). -/
def PcAdvanced (k : Nat) (s t : State) : Prop := t.pc.toNat = (s.pc.toNat + k) % 65536

/-- The number of the word at `pc`: two bytes, big-endian, each address reduced on its own (R63, R122). -/
def fetchedNumber (s : State) : Nat :=
  256 * (readByte s.pc.toNat s).toNat + (readByte (s.pc.toNat + 1) s).toNat

/-- The illegal words as R100 lists them, at a setting of the parameters. -/
def IllegalWord (c : Config) (w : Nat) : Prop :=
  (w < 0x1000 ∧ w ≠ 0x00E0 ∧ w ≠ 0x00EE) ∨
  (w / 0x1000 = 0x5 ∧ w % 16 ≠ 0) ∨
  (w / 0x1000 = 0x8 ∧
    (w % 16 ∈ [0x8, 0x9, 0xA, 0xB, 0xC, 0xD, 0xF] ∨ (w % 16 = 0 ∧ c.enableCopy8xy0 = false))) ∨
  (w / 0x1000 = 0x9 ∧ w % 16 ≠ 0) ∨
  (w / 0x1000 = 0xE ∧ w % 256 ∉ [0x9E, 0xA1]) ∨
  (w / 0x1000 = 0xF ∧ w % 256 ∉ [0x07, 0x0A, 0x15, 0x18, 0x1E, 0x29, 0x33, 0x55, 0x65])

/-- Whether the sprite of a draw covers cell `j`: some row `r` below `n` and column `c` below 8 have a sprite bit 1,
bit 7 the leftmost, and `j` is the index of column `Vx + c`, row `Vy + r`, neither reduced (R211, R212). -/
def SpriteCovers (x y : RegIdx) (n : RowCount) (s : State) (j : Nat) : Prop :=
  ∃ r c, r < n.val ∧ c < 8 ∧ (readByte (effectiveAddr s r) s).getLsbD (7 - c) = true ∧
    j = 64 * ((getReg y s).toNat + r) + ((getReg x s).toNat + c)

/-- The program has finished: the two bytes at `pc` encode a jump to `pc` itself, suspended or not (R307; D26, log
entry 28). -/
def Finished (s : State) : Prop :=
  fetchedNumber s / 0x1000 = 0x1 ∧ fetchedNumber s % 0x1000 = s.pc.toNat

end Sys2Proof.Machine
end

