-- ==== Sys2Proof/Certificates/Slice0/Obligations.lean ====
section
/-! DEFINITION. The statements for the provers. A clause that rests on a decision of the spec (92_eei_decisions.md D<n>)
or on general knowledge it supplies (93_implementation_defined.md G<n>) names it in the docstring. Every pc clause in
16 bits rests on D11, every encoding but `6xkk` and `8xy4` on D2 and D3. A clause that `config` or `draws` is as before
(alone, in `SameInputs`, or in a frame built on it) is about the model's own two fields, DESIGN CHOICE, log entries 1
and 2: no rule of the spec speaks of them. -/

open Sys2Proof Sys2Proof.Machine

/-! ### Encoding -/

/-- Decoding the word of any instruction gives that instruction back, with every operand (30_encoding.md R90 to R99;
the opcode values are D2's and D3's). -/
def Obligations.DecodeOfEncodeIsIdentity : Prop :=
  ∀ i : Instr, decode (encode i) = .ok i

/-- Each word means one instruction and no bit of it is dropped: a word that decodes is the encoding of what it decodes
to (30_encoding.md R91, R94 to R99; the opcode values are D2's and D3's). -/
def Obligations.EncodeOfDecodeIsIdentity : Prop :=
  ∀ (w : Word) (i : Instr), decode w = .ok i → encode i = w

/-- The words that decode to a legal instruction are exactly those that R100 does not list (the opcode values are D2's;
strict matching of groups 0, 5 and 9 is D4's; the gate of `8xy0` is D5's). -/
def Obligations.LegalWordsAreThoseNotListedIllegal : Prop :=
  ∀ (c : Config) (w : Word), (∃ i, decode w = .ok i ∧ i.wellFormed c = true) ↔ ¬ IllegalWord c w.toNat

/-- The word of every instruction is the number that 30_encoding.md R103 and opcode_table.json give it, with each field
at its place (the opcode values but `6xkk` and `8xy4` are D2's, the places of `y`, `n` and `nnn` D3's). -/
def Obligations.EncodingsAreThoseOfTheOpcodeTable : Prop :=
  (encode .cls).toNat = 0x00E0 ∧ (encode .ret).toNat = 0x00EE ∧
  (∀ nnn : Addr12, (encode (.jp nnn)).toNat = 0x1000 + nnn.toNat ∧ (encode (.call nnn)).toNat = 0x2000 + nnn.toNat ∧
    (encode (.ldINnn nnn)).toNat = 0xA000 + nnn.toNat ∧ (encode (.jpV0Nnn nnn)).toNat = 0xB000 + nnn.toNat) ∧
  (∀ (x : RegIdx) (kk : Byte),
    (encode (.seVxKk x kk)).toNat = 0x3000 + 256 * x.val + kk.toNat ∧
    (encode (.sneVxKk x kk)).toNat = 0x4000 + 256 * x.val + kk.toNat ∧
    (encode (.ldVxKk x kk)).toNat = 0x6000 + 256 * x.val + kk.toNat ∧
    (encode (.addVxKk x kk)).toNat = 0x7000 + 256 * x.val + kk.toNat ∧
    (encode (.rndVxKk x kk)).toNat = 0xC000 + 256 * x.val + kk.toNat) ∧
  (∀ x y : RegIdx,
    (encode (.seVxVy x y)).toNat = 0x5000 + 256 * x.val + 16 * y.val ∧
    (encode (.sneVxVy x y)).toNat = 0x9000 + 256 * x.val + 16 * y.val ∧
    (encode (.ldVxVy x y)).toNat = 0x8000 + 256 * x.val + 16 * y.val ∧
    (encode (.orVxVy x y)).toNat = 0x8001 + 256 * x.val + 16 * y.val ∧
    (encode (.andVxVy x y)).toNat = 0x8002 + 256 * x.val + 16 * y.val ∧
    (encode (.xorVxVy x y)).toNat = 0x8003 + 256 * x.val + 16 * y.val ∧
    (encode (.addVxVy x y)).toNat = 0x8004 + 256 * x.val + 16 * y.val ∧
    (encode (.subVxVy x y)).toNat = 0x8005 + 256 * x.val + 16 * y.val ∧
    (encode (.shrVxVy x y)).toNat = 0x8006 + 256 * x.val + 16 * y.val ∧
    (encode (.subnVxVy x y)).toNat = 0x8007 + 256 * x.val + 16 * y.val ∧
    (encode (.shlVxVy x y)).toNat = 0x800E + 256 * x.val + 16 * y.val) ∧
  (∀ (x y : RegIdx) (n : RowCount),
    (encode (.drwVxVyN x y n)).toNat = 0xD000 + 256 * x.val + 16 * y.val + n.val) ∧
  (∀ x : RegIdx,
    (encode (.skpVx x)).toNat = 0xE09E + 256 * x.val ∧ (encode (.sknpVx x)).toNat = 0xE0A1 + 256 * x.val ∧
    (encode (.ldVxDt x)).toNat = 0xF007 + 256 * x.val ∧ (encode (.ldVxK x)).toNat = 0xF00A + 256 * x.val ∧
    (encode (.ldDtVx x)).toNat = 0xF015 + 256 * x.val ∧ (encode (.ldStVx x)).toNat = 0xF018 + 256 * x.val ∧
    (encode (.addIVx x)).toNat = 0xF01E + 256 * x.val ∧ (encode (.ldFVx x)).toNat = 0xF029 + 256 * x.val ∧
    (encode (.ldBVx x)).toNat = 0xF033 + 256 * x.val ∧ (encode (.ldMemIVx x)).toNat = 0xF055 + 256 * x.val ∧
    (encode (.ldVxMemI x)).toNat = 0xF065 + 256 * x.val)

/-- A few words read right: the three of the source's sample, one of each other format, and three illegal ones
(30_encoding.md R91, R100, R103; D2, D3, D4). -/
def Obligations.SampleWordsDecodeAsTheSpecWrites : Prop :=
  decode 0x6005#16 = .ok (.ldVxKk 0 5) ∧ decode 0x6103#16 = .ok (.ldVxKk 1 3) ∧
  decode 0x8014#16 = .ok (.addVxVy 0 1) ∧ decode 0x00EE#16 = .ok .ret ∧ decode 0x2300#16 = .ok (.call 0x300#12) ∧
  decode 0xD125#16 = .ok (.drwVxVyN 1 2 5) ∧ decode 0xE29E#16 = .ok (.skpVx 2) ∧
  decode 0xF265#16 = .ok (.ldVxMemI 2) ∧ decode 0x0000#16 = .error .group0 ∧ decode 0x5121#16 = .error .group5 ∧
  decode 0xF156#16 = .error .groupF

/-! ### The step -/

/-- R121: while the awaiting-key flag is set a step is a no-op, whatever stands at `pc`: no state change, no error. -/
def Obligations.SuspendedStepIsANoOp : Prop :=
  ∀ s : State, s.waiting = true → step s = .next s

/-- A step of a block that is not suspended runs the instruction that the two bytes at `pc` and `pc + 1` decode to, the
first the high one, at the state itself: nothing is added around the instruction's own rule, which writes `pc`
(40_step_cycle.md R122 to R125; 20_memory.md R63). -/
def Obligations.StepRunsTheDecodedInstruction : Prop :=
  ∀ (s : State) (i : Instr), s.waiting = false →
    decode (wordOfBytes (readByte s.pc.toNat s) (readByte (s.pc.toNat + 1) s)) = .ok i →
    i.wellFormed s.config = true → step s = exec i s

/-- UnhandledInstruction is raised exactly when the block is not suspended and the word at `pc` is illegal, and it
carries that word (R100, R253; the list of illegal words is D2's, D4's and D5's, the payload D23's). -/
def Obligations.UnhandledInstructionExactlyOnIllegalWords : Prop :=
  ∀ (s : State) (w : Word), step s = .fault (.unhandledInstruction w) ↔
    s.waiting = false ∧ w.toNat = fetchedNumber s ∧ IllegalWord s.config w.toNat

/-- StackUnderflow is raised exactly when the block is not suspended, the word at `pc` is RET's and `sp = 0` (R251,
R259; the word 00EE is D2's). -/
def Obligations.StackUnderflowExactlyOnRetWithEmptyStack : Prop :=
  ∀ s : State, step s = .fault .stackUnderflow ↔ s.waiting = false ∧ fetchedNumber s = 0x00EE ∧ s.sp.val = 0

/-- StackOverflow is raised exactly when the block is not suspended, the word at `pc` is a CALL's and `sp = 16` (R252,
R259; the words 2nnn are D2's). -/
def Obligations.StackOverflowExactlyOnCallWithFullStack : Prop :=
  ∀ s : State, step s = .fault .stackOverflow ↔ s.waiting = false ∧ fetchedNumber s / 0x1000 = 0x2 ∧ s.sp.val = 16

/-- R254: `load` raises LoadOverflow exactly on an image longer than 3584 bytes, and no other operation raises it. -/
def Obligations.LoadOverflowExactlyOnLongImages : Prop :=
  ∀ (op : HostOp) (s : State), perform op s = .fault .loadOverflow ↔ ∃ image, op = .load image ∧ image.length > 3584

/-- Every operation is modelled: no operation on any state is refused (R120, R261: every operation has an effect or one
of the four errors of R250). -/
def Obligations.NoOperationIsRefused : Prop :=
  ∀ (op : HostOp) (s : State) (r : Refusal), perform op s ≠ .refused r

/-- A word placed for the next step is the word that step fetches, and the placement changes nothing else but the two
bytes and the awaiting flag (the model's own aid, log entry 25; R63, R64 for the two addresses). -/
def Obligations.PlacedWordIsFetchedNext : Prop :=
  ∀ (s : State) (w : Nat), w < 65536 →
    fetchedNumber (s.withFetchWord 16 w) = w ∧ (s.withFetchWord 16 w).waiting = false ∧
    (∀ a, a % 4096 ≠ s.pc.toNat % 4096 → a % 4096 ≠ (s.pc.toNat + 1) % 4096 →
      readByte a (s.withFetchWord 16 w) = readByte a s) ∧
    SameRegs s (s.withFetchWord 16 w) ∧ (s.withFetchWord 16 w).i = s.i ∧ (s.withFetchWord 16 w).pc = s.pc ∧
    SameTimers s (s.withFetchWord 16 w) ∧ SameStack s (s.withFetchWord 16 w) ∧ SameDisplay s (s.withFetchWord 16 w) ∧
    (s.withFetchWord 16 w).key = s.key ∧ (s.withFetchWord 16 w).waitreg = s.waitreg ∧
    SameInputs s (s.withFetchWord 16 w)

/-! ### Invariants -/

/-- Every step keeps memory in its canonical form: addresses strictly rising and inside the 4096 bytes, no cell that
reads as an unlisted address does. The form is the model's DESIGN CHOICE (log entry 19) for the memory of 10_state.md
R30; no rule of the spec gives it. -/
def Obligations.StepKeepsCanonicalMemory : Prop :=
  ∀ s t : State, Inv s → step s = .next t → Inv t

/-- Power-on memory is in canonical form, at every setting of the parameters. The form is the model's DESIGN CHOICE
(log entry 19), no rule of the spec; that power-on memory lists no cell rests on log entry 19 too, and on D20 for
0x050..0x1FF. -/
def Obligations.PowerOnMemoryIsCanonical : Prop :=
  ∀ c : Config, Inv (State.powerOn c)

/-- Every host session, of any operations in any order, keeps memory in its canonical form and the parameters as they
were. The form is the model's DESIGN CHOICE (log entry 19), and so is that the state carries the parameters and nothing
writes them (log entry 1); no rule of the spec gives either. The operations and their free order are those of
20_memory.md section 6 and 60_exceptions.md section 3 (D1, D25; log entry 24). -/
def Obligations.SessionsKeepCanonicalMemoryAndParameters : Prop :=
  ∀ (ops : List HostOp) (s t : State), Inv s → session ops s = .next t → Inv t ∧ t.config = s.config

/-- Of the instructions only CLS and DRW change the display (10_state.md R32, 44_display.md R215 (c)). -/
def Obligations.OnlyClearAndDrawChangeTheDisplay : Prop :=
  ∀ (s t : State) (j : Nat), step s = .next t → t.disp.lit j ≠ s.disp.lit j →
    decode (fetchWord s) = .ok .cls ∨ ∃ x y n, decode (fetchWord s) = .ok (.drwVxVyN x y n)

/-- Of the instructions only LD B,Vx and LD [I],Vx change memory (20_memory.md R65, R76). -/
def Obligations.OnlyBcdAndBlockStoreChangeMemory : Prop :=
  ∀ (s t : State) (a : Nat), step s = .next t → readByte a t ≠ readByte a s →
    (∃ x, decode (fetchWord s) = .ok (.ldBVx x)) ∨ ∃ x, decode (fetchWord s) = .ok (.ldMemIVx x)

/-- Of the instructions only CALL raises the stack pointer, by one, and only RET lowers it, by one; an entry changes
only at a CALL, and only the entry at the old stack pointer (10_state.md R26, R27). -/
def Obligations.OnlyCallAndRetChangeTheStack : Prop :=
  ∀ s t : State, step s = .next t →
    (∃ nnn, decode (fetchWord s) = .ok (.call nnn) ∧ s.waiting = false ∧ t.sp.val = s.sp.val + 1 ∧
      ∀ k (h : k < 16), k ≠ s.sp.val → t.stack[k] = s.stack[k]) ∨
    (decode (fetchWord s) = .ok .ret ∧ s.waiting = false ∧ t.sp.val + 1 = s.sp.val ∧ t.stack = s.stack) ∨
    SameStack s t

/-- No step changes a key state or a parameter, and no step ends a wait: a step that changes the awaiting flag or its
target is LD Vx,K's and sets the flag (10_state.md R28, R29; 60_exceptions.md R263). That the state carries the
parameters and no step writes them is the model's DESIGN CHOICE (log entry 1); the spec has them as inputs that are no
state (00_scope.md R6, 10_state.md R33). -/
def Obligations.StepsLeaveTheKeyLatchButForWaits : Prop :=
  ∀ s t : State, step s = .next t → t.key = s.key ∧ t.config = s.config ∧
    ((t.waiting = s.waiting ∧ t.waitreg = s.waitreg) ∨
      ∃ x, decode (fetchWord s) = .ok (.ldVxK x) ∧ t.waiting = true ∧ t.waitreg = x)

/-- Of the instructions only LD DT,Vx writes DT, only LD ST,Vx writes ST, and only LD I,nnn, ADD I,Vx and LD F,Vx write
I (10_state.md R22, R24, R25; that LD B, LD [I], LD Vx,[I] and DRW leave I is D15's). -/
def Obligations.OnlyTheirInstructionsWriteTimersAndAddress : Prop :=
  ∀ s t : State, step s = .next t →
    (t.dt ≠ s.dt → ∃ x, decode (fetchWord s) = .ok (.ldDtVx x)) ∧
    (t.st ≠ s.st → ∃ x, decode (fetchWord s) = .ok (.ldStVx x)) ∧
    (t.i ≠ s.i → (∃ nnn, decode (fetchWord s) = .ok (.ldINnn nnn)) ∨ (∃ x, decode (fetchWord s) = .ok (.addIVx x)) ∨
      ∃ x, decode (fetchWord s) = .ok (.ldFVx x))

/-! ### Control flow -/

/-- JP nnn completes in every state: `pc` is the zero-extended address and nothing else changes (R141). -/
def Obligations.JumpSetsPc : Prop :=
  ∀ (nnn : Addr12) (s : State), ∃ t, exec (.jp nnn) s = .next t ∧ t.pc.toNat = nnn.toNat ∧ OnlyPc s t

/-- JP V0,nnn completes in every state: `pc` is the address plus register 0, all bits kept (R147; that no 12-bit mask
applies is D11's). -/
def Obligations.JumpOffsetAddsRegisterZero : Prop :=
  ∀ (nnn : Addr12) (s : State), ∃ t, exec (.jpV0Nnn nnn) s = .next t ∧
    t.pc.toNat = nnn.toNat + (getReg 0 s).toNat ∧ OnlyPc s t

/-- At a jump to its own address every step completes and leaves the whole state as it is, suspended or not
(70_reset_and_hazards.md R307, 40_step_cycle.md R121; that this marks the end of a program is D26's convention, log
entry 28; the word 1nnn is D2's). -/
def Obligations.SelfJumpLeavesTheState : Prop :=
  ∀ s : State, Finished s → step s = .next s

/-- CALL nnn completes when the stack is not full: its own address is pushed, the pointer goes up by one, `pc` is the
address (R142; that the entry is the CALL's own address is D10's). -/
def Obligations.CallPushesItsAddressAndJumps : Prop :=
  ∀ (nnn : Addr12) (s : State) (h : s.sp.val < 16), ∃ t, exec (.call nnn) s = .next t ∧
    t.stack[s.sp.val] = s.pc ∧ (∀ k (hk : k < 16), k ≠ s.sp.val → t.stack[k] = s.stack[k]) ∧
    t.sp.val = s.sp.val + 1 ∧ t.pc.toNat = nnn.toNat ∧ OnlyStackAndPc s t

/-- RET completes when the stack is not empty: the pointer goes down by one, `pc` is two past the popped entry, the
entries stay (R140; the addition of two is D10's). -/
def Obligations.RetResumesTwoPastThePoppedEntry : Prop :=
  ∀ (s : State) (h : 0 < s.sp.val), ∃ t, exec .ret s = .next t ∧
    t.sp.val + 1 = s.sp.val ∧ t.pc.toNat = ((s.stack[s.sp.val - 1]).toNat + 2) % 65536 ∧ t.stack = s.stack ∧
    OnlyStackAndPc s t

/-- A CALL and a later RET that finds the stack as the CALL left it resume two past the CALL with the stack pointer
restored, at any depth below 16 (41_control_flow.md R148 (e); D10). -/
def Obligations.CallThenRetResumesAfterTheCall : Prop :=
  ∀ (nnn : Addr12) (s t u : State), exec (.call nnn) s = .next t → u.stack = t.stack → u.sp = t.sp →
    ∃ r, exec .ret u = .next r ∧ r.pc.toNat = (s.pc.toNat + 2) % 65536 ∧ r.sp = s.sp

/-- SE Vx,kk and SNE Vx,kk complete in every state: `pc` moves by 4 on a match (SE) or a mismatch (SNE), else by 2, and
nothing else changes (R143, R144). -/
def Obligations.SkipOnImmediateComparison : Prop :=
  ∀ (x : RegIdx) (kk : Byte) (s : State),
    (∃ t, exec (.seVxKk x kk) s = .next t ∧ OnlyPc s t ∧
      PcAdvanced (if (getReg x s).toNat = kk.toNat then 4 else 2) s t) ∧
    (∃ t, exec (.sneVxKk x kk) s = .next t ∧ OnlyPc s t ∧
      PcAdvanced (if (getReg x s).toNat = kk.toNat then 2 else 4) s t)

/-- SE Vx,Vy and SNE Vx,Vy complete in every state: `pc` moves by 4 on equal (SE) or unequal (SNE) registers, else by 2,
and nothing else changes (R145, R146). -/
def Obligations.SkipOnRegisterComparison : Prop :=
  ∀ (x y : RegIdx) (s : State),
    (∃ t, exec (.seVxVy x y) s = .next t ∧ OnlyPc s t ∧
      PcAdvanced (if (getReg x s).toNat = (getReg y s).toNat then 4 else 2) s t) ∧
    (∃ t, exec (.sneVxVy x y) s = .next t ∧ OnlyPc s t ∧
      PcAdvanced (if (getReg x s).toNat = (getReg y s).toNat then 2 else 4) s t)

/-! ### Arithmetic and logic -/

/-- LD Vx,kk, the word 6xkk, completes in every state: register x is the immediate, `pc` moves by 2, nothing else
changes; VF changes only as the destination (R160; that `pc` wraps at 65536 is D11's, log entry 11). -/
def Obligations.LoadImmediateSetsTheRegister : Prop :=
  ∀ (x : RegIdx) (kk : Byte) (s : State), (encode (.ldVxKk x kk)).toNat = 0x6000 + 256 * x.val + kk.toNat ∧
    ∃ t, exec (.ldVxKk x kk) s = .next t ∧ getReg x t = kk ∧ SameRegsBut (· = x) s t ∧ PcAdvanced 2 s t ∧
      OnlyRegsAndPc s t

/-- ADD Vx,kk completes in every state: the sum modulo 256, no flag even on a wrap (R161). -/
def Obligations.AddImmediateWrapsWithoutFlag : Prop :=
  ∀ (x : RegIdx) (kk : Byte) (s : State), ∃ t, exec (.addVxKk x kk) s = .next t ∧
    (getReg x t).toNat = ((getReg x s).toNat + kk.toNat) % 256 ∧ SameRegsBut (· = x) s t ∧ PcAdvanced 2 s t ∧
    OnlyRegsAndPc s t

/-- LD Vx,Vy completes where `enableCopy8xy0` is set, with register x the value of register y; where it is not set the
instruction raises UnhandledInstruction with its word (42_alu.md R162, 30_encoding.md R100 (c); the gate, its default
and the copy's effect are D5's, the payload D23's). -/
def Obligations.RegisterCopyIsGated : Prop :=
  ∀ (x y : RegIdx) (s : State),
    (s.config.enableCopy8xy0 = true → ∃ t, exec (.ldVxVy x y) s = .next t ∧ getReg x t = getReg y s ∧
      SameRegsBut (· = x) s t ∧ PcAdvanced 2 s t ∧ OnlyRegsAndPc s t) ∧
    (s.config.enableCopy8xy0 = false → ∃ w, exec (.ldVxVy x y) s = .fault (.unhandledInstruction w) ∧
      w.toNat = 0x8000 + 256 * x.val + 16 * y.val)

/-- OR, AND and XOR complete in every state: each bit of register x is the operation on the bits of both operands, and
no other register changes (R163, R164, R165; that VF is not written as a flag is D6's). -/
def Obligations.LogicIsBitwiseAndLeavesTheFlag : Prop :=
  ∀ (x y : RegIdx) (s : State),
    (∃ t, exec (.orVxVy x y) s = .next t ∧
      (∀ b < 8, (getReg x t).getLsbD b = ((getReg x s).getLsbD b || (getReg y s).getLsbD b)) ∧
      SameRegsBut (· = x) s t ∧ PcAdvanced 2 s t ∧ OnlyRegsAndPc s t) ∧
    (∃ t, exec (.andVxVy x y) s = .next t ∧
      (∀ b < 8, (getReg x t).getLsbD b = ((getReg x s).getLsbD b && (getReg y s).getLsbD b)) ∧
      SameRegsBut (· = x) s t ∧ PcAdvanced 2 s t ∧ OnlyRegsAndPc s t) ∧
    (∃ t, exec (.xorVxVy x y) s = .next t ∧
      (∀ b < 8, (getReg x t).getLsbD b = ((getReg x s).getLsbD b != (getReg y s).getLsbD b)) ∧
      SameRegsBut (· = x) s t ∧ PcAdvanced 2 s t ∧ OnlyRegsAndPc s t)

/-- ADD Vx,Vy completes in every state: register x is the sum modulo 256, also where x is 15, and VF elsewhere is 1
exactly when the unmodulated sum exceeds 255 (R166, R174; that the result is written last, so that it survives in VF,
is D9's). -/
def Obligations.AddRegistersSetsCarry : Prop :=
  ∀ (x y : RegIdx) (s : State), ∃ t, exec (.addVxVy x y) s = .next t ∧
    (getReg x t).toNat = ((getReg x s).toNat + (getReg y s).toNat) % 256 ∧
    (x ≠ 15 → (getReg 15 t).toNat = if (getReg x s).toNat + (getReg y s).toNat > 255 then 1 else 0) ∧
    SameRegsBut (fun z => z = x ∨ z = 15) s t ∧ PcAdvanced 2 s t ∧ OnlyRegsAndPc s t

/-- SUB Vx,Vy completes in every state: register x is the difference modulo 256, also where x is 15, and VF elsewhere is
1 exactly when the first operand is greater, strictly (R167, R174; the order of the two writes is D9's). -/
def Obligations.SubRegistersSetsStrictlyGreater : Prop :=
  ∀ (x y : RegIdx) (s : State), ∃ t, exec (.subVxVy x y) s = .next t ∧
    (getReg x t).toNat = (256 + (getReg x s).toNat - (getReg y s).toNat) % 256 ∧
    (x ≠ 15 → (getReg 15 t).toNat = if (getReg x s).toNat > (getReg y s).toNat then 1 else 0) ∧
    SameRegsBut (fun z => z = x ∨ z = 15) s t ∧ PcAdvanced 2 s t ∧ OnlyRegsAndPc s t

/-- SUBN Vx,Vy completes in every state: SUB with the operands reversed, into register x (R169, R174; the order of the
two writes is D9's). -/
def Obligations.SubnReversesTheOperands : Prop :=
  ∀ (x y : RegIdx) (s : State), ∃ t, exec (.subnVxVy x y) s = .next t ∧
    (getReg x t).toNat = (256 + (getReg y s).toNat - (getReg x s).toNat) % 256 ∧
    (x ≠ 15 → (getReg 15 t).toNat = if (getReg y s).toNat > (getReg x s).toNat then 1 else 0) ∧
    SameRegsBut (fun z => z = x ∨ z = 15) s t ∧ PcAdvanced 2 s t ∧ OnlyRegsAndPc s t

/-- SHR Vx,Vy completes in every state: register x is the source divided by two, VF the source's bit 0 unless x is 15;
the source is register y or register x by the parameter `shiftSource` (R168, R173; the parameter is D7's). -/
def Obligations.ShiftRightHalvesTheSource : Prop :=
  ∀ (x y : RegIdx) (s : State), ∃ t, exec (.shrVxVy x y) s = .next t ∧
    (∀ b, b = (if s.config.shiftSource = .y then getReg y s else getReg x s) →
      (getReg x t).toNat = b.toNat / 2 ∧ (x ≠ 15 → (getReg 15 t).toNat = b.toNat % 2)) ∧
    SameRegsBut (fun z => z = x ∨ z = 15) s t ∧ PcAdvanced 2 s t ∧ OnlyRegsAndPc s t

/-- SHL Vx,Vy completes in every state: register x is twice the source modulo 256, VF the source's bit 7, or its bit 0
when `strictShiftSemantics` is off, unless x is 15 (R170, R173; the source register is D7's, the flag's parameter
D8's). -/
def Obligations.ShiftLeftDoublesTheSource : Prop :=
  ∀ (x y : RegIdx) (s : State), ∃ t, exec (.shlVxVy x y) s = .next t ∧
    (∀ b, b = (if s.config.shiftSource = .y then getReg y s else getReg x s) →
      (getReg x t).toNat = 2 * b.toNat % 256 ∧
      (x ≠ 15 → (getReg 15 t).toNat = if s.config.strictShiftSemantics then b.toNat / 128 else b.toNat % 2)) ∧
    SameRegsBut (fun z => z = x ∨ z = 15) s t ∧ PcAdvanced 2 s t ∧ OnlyRegsAndPc s t

/-- RND Vx,kk completes in every state: each bit of register x is the random byte's where the immediate has a 1 and 0
elsewhere, and the next draw is a new one. The random byte is a free value, so this holds for every byte it may be
(R171; D18, log entry 2). -/
def Obligations.RandomIsADrawMaskedByTheImmediate : Prop :=
  ∀ (x : RegIdx) (kk : Byte) (s : State), ∃ t, exec (.rndVxKk x kk) s = .next t ∧
    (∀ b < 8, (getReg x t).getLsbD b = ((Config.randomByte s.draws).getLsbD b && kk.getLsbD b)) ∧
    SameRegsBut (· = x) s t ∧ PcAdvanced 2 s t ∧ t.draws = s.draws + 1 ∧ t.config = s.config ∧
    t.i = s.i ∧ SameTimers s t ∧ SameStack s t ∧ SameLatch s t ∧ SameMemory s t ∧ SameDisplay s t

/-! ### Address register and memory -/

/-- LD I,nnn completes in every state: I is the zero-extended address (R190). -/
def Obligations.LoadAddressSetsI : Prop :=
  ∀ (nnn : Addr12) (s : State), ∃ t, exec (.ldINnn nnn) s = .next t ∧ t.i.toNat = nnn.toNat ∧ PcAdvanced 2 s t ∧
    OnlyIAndPc s t

/-- ADD I,Vx completes in every state: I is the sum modulo 65536, VF is not written (R191). -/
def Obligations.AddToAddressWrapsAt65536 : Prop :=
  ∀ (x : RegIdx) (s : State), ∃ t, exec (.addIVx x) s = .next t ∧
    t.i.toNat = (s.i.toNat + (getReg x s).toNat) % 65536 ∧ PcAdvanced 2 s t ∧ OnlyIAndPc s t

/-- LD F,Vx completes in every state: I is five times the whole register value, with no wrap (R192; that the value is
not masked to 4 bits is D17's). -/
def Obligations.LoadGlyphAddressIsFiveTimes : Prop :=
  ∀ (x : RegIdx) (s : State), ∃ t, exec (.ldFVx x) s = .next t ∧ t.i.toNat = 5 * (getReg x s).toNat ∧
    PcAdvanced 2 s t ∧ OnlyIAndPc s t

/-- LD B,Vx completes in every state: hundreds, tens and ones at I, I+1 and I+2, each address reduced on its own, every
other byte as before (R193, R62; that I stays is D15's, the separate reduction D11's). -/
def Obligations.StoreBcdWritesThreeDigits : Prop :=
  ∀ (x : RegIdx) (s : State), ∃ t, exec (.ldBVx x) s = .next t ∧
    (readByte (effectiveAddr s 0) t).toNat = (getReg x s).toNat / 100 ∧
    (readByte (effectiveAddr s 1) t).toNat = (getReg x s).toNat / 10 % 10 ∧
    (readByte (effectiveAddr s 2) t).toNat = (getReg x s).toNat % 10 ∧
    (∀ a, (∀ k < 3, a % 4096 ≠ effectiveAddr s k % 4096) → readByte a t = readByte a s) ∧
    PcAdvanced 2 s t ∧ OnlyMemoryAndPc s t

/-- LD [I],Vx completes in every state: registers 0 to x, inclusive, at I onward, each address reduced on its own, every
other byte as before (R194, R62; that I stays is D15's, the separate reduction D11's). -/
def Obligations.BlockStoreWritesRegistersThroughX : Prop :=
  ∀ (x : RegIdx) (s : State), ∃ t, exec (.ldMemIVx x) s = .next t ∧
    (∀ k : RegIdx, k ≤ x → readByte (effectiveAddr s k.val) t = getReg k s) ∧
    (∀ a, (∀ k ≤ x.val, a % 4096 ≠ effectiveAddr s k % 4096) → readByte a t = readByte a s) ∧
    PcAdvanced 2 s t ∧ OnlyMemoryAndPc s t

/-- LD Vx,[I] completes in every state: registers 0 to x, inclusive, from memory at I onward, the others as before
(R195; that I stays is D15's). -/
def Obligations.BlockLoadReadsRegistersThroughX : Prop :=
  ∀ (x : RegIdx) (s : State), ∃ t, exec (.ldVxMemI x) s = .next t ∧
    (∀ k : RegIdx, k ≤ x → getReg k t = readByte (effectiveAddr s k.val) s) ∧
    SameRegsBut (· ≤ x) s t ∧ PcAdvanced 2 s t ∧ OnlyRegsAndPc s t

/-- A block store and a block load of the same registers, with I unchanged between, memory as the store left it and the
parameters the same, bring every stored register back, wherever the block wraps (R194, R195, R62; that I stays is
D15's; that the parameters are a field of the state is the model's DESIGN CHOICE, log entry 1). -/
def Obligations.BlockLoadRestoresABlockStore : Prop :=
  ∀ (x : RegIdx) (s t u : State), exec (.ldMemIVx x) s = .next t → u.i = s.i → u.mem = t.mem →
    u.config = t.config → ∃ r, exec (.ldVxMemI x) u = .next r ∧ ∀ k : RegIdx, k ≤ x → getReg k r = getReg k s

/-! ### Display -/

/-- CLS completes in every state: every display cell is unlit, VF and everything else as before (R210). -/
def Obligations.ClearUnlightsEveryCell : Prop :=
  ∀ s : State, ∃ t, exec .cls s = .next t ∧ (∀ j < 4096, t.disp.lit j = false) ∧ PcAdvanced 2 s t ∧
    OnlyDisplayAndPc s t

/-- DRW Vx,Vy,n completes in every state: a cell of the buffer is inverted exactly when the sprite covers it, with
neither coordinate wrapped or clipped, and VF is 1 exactly when a covered cell of the buffer was lit, else 0 (R211,
R212, R214; coordinates sampled before VF is cleared and bit 7 leftmost are D13's, dropping cells past the buffer
D14's, that I stays D15's). -/
def Obligations.DrawInvertsTheCoveredCells : Prop :=
  ∀ (x y : RegIdx) (n : RowCount) (s : State), ∃ t, exec (.drwVxVyN x y n) s = .next t ∧
    (∀ j < 4096, (SpriteCovers x y n s j → t.disp.lit j = !s.disp.lit j) ∧
      (¬ SpriteCovers x y n s j → t.disp.lit j = s.disp.lit j)) ∧
    ((∃ j < 4096, SpriteCovers x y n s j ∧ s.disp.lit j = true) → getReg 15 t = 1) ∧
    ((¬ ∃ j < 4096, SpriteCovers x y n s j ∧ s.disp.lit j = true) → getReg 15 t = 0) ∧
    SameRegsBut (· = 15) s t ∧ t.i = s.i ∧ SameTimers s t ∧ SameStack s t ∧ SameLatch s t ∧ SameMemory s t ∧
    SameInputs s t ∧ PcAdvanced 2 s t

/-- Drawing the same sprite twice at the same place restores every cell; the second draw's VF is 1 when the sprite
covers a cell of the buffer that was unlit before the first. Neither coordinate register may be VF, which the first
draw writes (44_display.md R215, which calls (a) derived; the flag is 90_conflicts.md C3's choice). -/
def Obligations.DrawingTwiceRestoresTheDisplay : Prop :=
  ∀ (x y : RegIdx) (n : RowCount) (s t u : State), x ≠ 15 → y ≠ 15 →
    exec (.drwVxVyN x y n) s = .next t → exec (.drwVxVyN x y n) t = .next u →
    SameDisplay s u ∧ ((∃ j < 4096, SpriteCovers x y n s j ∧ s.disp.lit j = false) → getReg 15 u = 1)

/-! ### Keypad and timers -/

/-- SKP Vx and SKNP Vx complete in every state: the key is the register's value modulo 16; SKP moves `pc` by 4 when it is
pressed, SKNP when it is not, else by 2 (R230, R231). -/
def Obligations.SkipOnKeyState : Prop :=
  ∀ (x : RegIdx) (s : State),
    (∃ t, exec (.skpVx x) s = .next t ∧ OnlyPc s t ∧
      PcAdvanced (if s.key[(getReg x s).toNat % 16] = true then 4 else 2) s t) ∧
    (∃ t, exec (.sknpVx x) s = .next t ∧ OnlyPc s t ∧
      PcAdvanced (if s.key[(getReg x s).toNat % 16] = true then 2 else 4) s t)

/-- LD Vx,DT completes in every state: register x is DT, which stays (R232). -/
def Obligations.LoadDelayTimerReadsDt : Prop :=
  ∀ (x : RegIdx) (s : State), ∃ t, exec (.ldVxDt x) s = .next t ∧ getReg x t = s.dt ∧ SameRegsBut (· = x) s t ∧
    PcAdvanced 2 s t ∧ OnlyRegsAndPc s t

/-- LD DT,Vx and LD ST,Vx complete in every state: the one timer is register x, the other stays (R234, R235). -/
def Obligations.StoreTimersWriteTheirTimerOnly : Prop :=
  ∀ (x : RegIdx) (s : State),
    (∃ t, exec (.ldDtVx x) s = .next t ∧ t.dt = getReg x s ∧ t.st = s.st ∧ PcAdvanced 2 s t ∧ SameRegs s t ∧
      t.i = s.i ∧ SameStack s t ∧ SameLatch s t ∧ SameMemory s t ∧ SameDisplay s t ∧ SameInputs s t) ∧
    (∃ t, exec (.ldStVx x) s = .next t ∧ t.st = getReg x s ∧ t.dt = s.dt ∧ PcAdvanced 2 s t ∧ SameRegs s t ∧
      t.i = s.i ∧ SameStack s t ∧ SameLatch s t ∧ SameMemory s t ∧ SameDisplay s t ∧ SameInputs s t)

/-- LD Vx,K completes in every state: the awaiting flag and its target are set, no register is written, `pc` moves by 2
(R233; that its own step advances `pc` is D12's). -/
def Obligations.WaitForKeyBeginsAWait : Prop :=
  ∀ (x : RegIdx) (s : State), ∃ t, exec (.ldVxK x) s = .next t ∧ t.waiting = true ∧ t.waitreg = x ∧ t.key = s.key ∧
    PcAdvanced 2 s t ∧ SameRegs s t ∧ t.i = s.i ∧ SameTimers s t ∧ SameStack s t ∧ SameMemory s t ∧
    SameDisplay s t ∧ SameInputs s t

/-! ### Host operations -/

/-- A tick lowers each timer by one, floored at 0, and changes nothing else, suspended or not (R262; that the model's own
two fields, `config` and `draws`, stay too is the model's DESIGN CHOICE, log entries 1 and 2). -/
def Obligations.TickCountsDownToZero : Prop :=
  ∀ s : State, ∃ t, perform .tick s = .next t ∧ t.dt.toNat = s.dt.toNat - 1 ∧ t.st.toNat = s.st.toNat - 1 ∧
    SameRegs s t ∧ t.i = s.i ∧ t.pc = s.pc ∧ SameStack s t ∧ SameLatch s t ∧ SameMemory s t ∧ SameDisplay s t ∧
    SameInputs s t

/-- A key event: a duplicate changes nothing; otherwise the key's state changes, and a press while waiting also puts the
key's number into the target register and ends the wait, `waitreg` staying; nothing else changes (R263, 90_conflicts.md
C7; that a key outside 0..15 has no transition is D24's). -/
def Obligations.KeyEventLatchesAndResolvesWaits : Prop :=
  ∀ (k : KeyIdx) (p : Bool) (s : State), ∃ t, perform (.setKey k p) s = .next t ∧
    (s.key[k] = p → t = s) ∧ (∀ j : KeyIdx, keyState j t = if j = k then p else keyState j s) ∧
    (∀ z, getReg z t =
      if s.key[k] = false ∧ p = true ∧ s.waiting = true ∧ z = s.waitreg then BitVec.ofNat 8 k.val else getReg z s) ∧
    t.waiting = (s.waiting && !(p && !s.key[k])) ∧ t.waitreg = s.waitreg ∧
    t.i = s.i ∧ t.pc = s.pc ∧ SameTimers s t ∧ SameStack s t ∧ SameMemory s t ∧ SameDisplay s t ∧ SameInputs s t

/-- A wait is resolved by a fresh press alone: after LD Vx,K, any number of steps, ticks and key releases leaves the
block waiting with `pc` in place, and then a press of a released key gives its number to register x and ends the wait
(45_keypad_timers.md R233, 60_exceptions.md R263, R271; the `pc` after LD Vx,K is D12's). -/
def Obligations.OnlyAFreshPressResolvesAWait : Prop :=
  ∀ (x : RegIdx) (s t u : State) (ops : List HostOp) (k : KeyIdx), exec (.ldVxK x) s = .next t →
    (∀ op ∈ ops, op = .step ∨ op = .tick ∨ ∃ j, op = .setKey j false) → session ops t = .next u →
    u.waiting = true ∧ PcAdvanced 2 s u ∧
    (keyState k u = false → ∃ r, perform (.setKey k true) u = .next r ∧ r.waiting = false ∧
      (getReg x r).toNat = k.val)

/-- An image of at most 3584 bytes loads in every state: byte i stands at 0x200 + i, the rest of the program region is 0,
the glyph table is re-seeded, 0x050..0x1FF is kept, `pc` is 0x200, the stack pointer, both timers and all registers are
0, the display is unlit (R304, R300; I, keys and wait at 0 are D19's, the length check first D22's). -/
def Obligations.LoadPlacesTheImage : Prop :=
  ∀ (image : List Byte) (s : State), image.length ≤ 3584 → ∃ t, perform (.load image) s = .next t ∧
    (∀ (k : Nat) (h : k < image.length), readByte (0x200 + k) t = image[k]) ∧
    (∀ a, 0x200 + image.length ≤ a → a < 0x1000 → readByte a t = 0) ∧
    (∀ (a : Nat) (h : a < 80), readByte a t = s.config.glyphTable[a]) ∧
    (∀ a, 80 ≤ a → a < 0x200 → readByte a t = readByte a s) ∧
    t.pc = 0x200 ∧ t.sp = 0 ∧ t.dt = 0 ∧ t.st = 0 ∧ (∀ z, getReg z t = 0) ∧ (∀ j, t.disp.lit j = false) ∧
    t.i = 0 ∧ (∀ k, keyState k t = false) ∧ t.waiting = false ∧ t.waitreg = 0

/-- Reset re-seeds the glyph table, zeroes the program region, keeps 0x050..0x1FF and sets the rest as at power-on, and a
second reset changes nothing (R300, R302; the values of I, stack entries, keys and wait are D19's). That reset keeps the
model's own two fields, `config`, which the last clause names, and `draws`, which the second reset leaves like the rest
of the state, is the model's DESIGN CHOICE (log entries 27, 1 and 2), no rule of the spec; so is the form of the memory
that the second reset leaves as it is (log entry 19). -/
def Obligations.ResetIsIdempotentAndKeepsLowMemory : Prop :=
  ∀ s : State, ∃ t, perform .reset s = .next t ∧ perform .reset t = .next t ∧
    (∀ (a : Nat) (h : a < 80), readByte a t = s.config.glyphTable[a]) ∧
    (∀ a, 80 ≤ a → a < 0x200 → readByte a t = readByte a s) ∧
    (∀ a, 0x200 ≤ a → a < 0x1000 → readByte a t = 0) ∧
    t.pc = 0x200 ∧ t.sp = 0 ∧ (∀ k (h : k < 16), t.stack[k] = 0) ∧ t.dt = 0 ∧ t.st = 0 ∧ (∀ z, getReg z t = 0) ∧
    t.i = 0 ∧ (∀ j, t.disp.lit j = false) ∧ (∀ k, keyState k t = false) ∧ t.waiting = false ∧ t.waitreg = 0 ∧
    t.config = s.config

/-- The state after power-on and reset, as 10_state.md R36 tabulates it: registers, timers, stack pointer, display,
`pc`, the glyph table and the zeroed program region (the values of I, stack entries, keys and wait are D19's, of
0x050..0x1FF D20's). -/
def Obligations.ResetStateIsAsTabulated : Prop :=
  ∀ c : Config, (∀ z, getReg z (State.powerOn c) = 0) ∧ (State.powerOn c).i = 0 ∧ (State.powerOn c).pc = 0x200 ∧
    (State.powerOn c).dt = 0 ∧ (State.powerOn c).st = 0 ∧ (State.powerOn c).sp = 0 ∧
    (∀ k (h : k < 16), (State.powerOn c).stack[k] = 0) ∧ (∀ k, keyState k (State.powerOn c) = false) ∧
    (State.powerOn c).waiting = false ∧ (State.powerOn c).waitreg = 0 ∧ (∀ j, (State.powerOn c).disp.lit j = false) ∧
    (∀ (a : Nat) (h : a < 80), readByte a (State.powerOn c) = c.glyphTable[a]) ∧
    (∀ a, 80 ≤ a → a < 0x1000 → readByte a (State.powerOn c) = 0)

/-! ### Memory accesses -/

/-- R61: a write at any address sets the byte at that address modulo 4096, and every other location reads as before. -/
def Obligations.MemWriteSetsOneByteModulo4096 : Prop :=
  ∀ (a : Nat) (b : Byte) (s : State),
    readByte (a % 4096) (writeByte a b s) = b ∧
    ∀ c < 4096, c ≠ a % 4096 → readByte c (writeByte a b s) = readByte c s
end

