-- ==== Sys2Proof/Laws/Decode.lean ====
section
/-! SUPPORT. Words and their fields as numbers, and each field of a word in each format. -/

namespace Sys2Proof

theorem toNat_concat {n m : Nat} (a : BitVec n) (b : BitVec m) : (a ++ b).toNat = a.toNat * 2 ^ m + b.toNat := by
  rw [BitVec.toNat_append, ← Nat.shiftLeft_add_eq_or_of_lt b.isLt, Nat.shiftLeft_eq]

/-! ### Fields as numbers (R91) -/

theorem opField_toNat (w : Word) : (opField w).toNat = w.toNat / 4096 := by
  have := w.isLt
  simp only [opField, BitVec.extractLsb'_toNat, Nat.shiftRight_eq_div_pow]
  omega

theorem xField_val (w : Word) : (xField w).val = w.toNat / 256 % 16 := by
  simp only [xField, BitVec.toFin_extractLsb', Fin.val_ofNat, Nat.shiftRight_eq_div_pow]

theorem yField_val (w : Word) : (yField w).val = w.toNat / 16 % 16 := by
  simp only [yField, BitVec.toFin_extractLsb', Fin.val_ofNat, Nat.shiftRight_eq_div_pow]

theorem nField_val (w : Word) : (nField w).val = w.toNat % 16 := by
  simp only [nField, BitVec.toFin_extractLsb', Fin.val_ofNat, Nat.shiftRight_eq_div_pow]
  omega

theorem nnnField_toNat (w : Word) : (nnnField w).toNat = w.toNat % 4096 := by
  simp only [nnnField, BitVec.extractLsb'_toNat, Nat.shiftRight_eq_div_pow]
  omega

theorem kkField_toNat (w : Word) : (kkField w).toNat = w.toNat % 256 := by
  simp only [kkField, BitVec.extractLsb'_toNat, Nat.shiftRight_eq_div_pow]
  omega

theorem wordOfBytes_toNat (hi lo : Byte) : (wordOfBytes hi lo).toNat = 256 * hi.toNat + lo.toNat := by
  rw [wordOfBytes, toNat_concat]; omega

theorem wordOfBytes_high_low (w : Word) : wordOfBytes (highByte w) (lowByte w) = w := by
  have := w.isLt
  apply BitVec.eq_of_toNat_eq
  simp only [wordOfBytes_toNat, highByte, lowByte, BitVec.extractLsb'_toNat, Nat.shiftRight_eq_div_pow]
  omega

/-! ### Words as numbers (R92) -/

theorem formatA_toNat (op : BitVec 4) (nnn : Addr12) : (formatA op nnn).toNat = 4096 * op.toNat + nnn.toNat := by
  rw [show (formatA op nnn).toNat = (op ++ nnn).toNat from rfl, toNat_concat]; omega

theorem formatXK_toNat (op : BitVec 4) (x : RegIdx) (kk : Byte) :
    (formatXK op x kk).toNat = 4096 * op.toNat + 256 * x.val + kk.toNat := by
  rw [show (formatXK op x kk).toNat = (op ++ (BitVec.ofFin x : BitVec 4) ++ kk).toNat from rfl, toNat_concat,
    toNat_concat]
  simp only [BitVec.toNat_ofFin]
  omega

theorem formatXYN_toNat (op : BitVec 4) (x y : RegIdx) (n : RowCount) :
    (formatXYN op x y n).toNat = 4096 * op.toNat + 256 * x.val + 16 * y.val + n.val := by
  rw [show (formatXYN op x y n).toNat =
      (op ++ (BitVec.ofFin x : BitVec 4) ++ (BitVec.ofFin y : BitVec 4) ++ (BitVec.ofFin n : BitVec 4)).toNat from rfl,
    toNat_concat, toNat_concat, toNat_concat]
  simp only [BitVec.toNat_ofFin]
  omega

/-! ### The fields of each format -/

section
variable (op : BitVec 4) (nnn : Addr12) (x y : RegIdx) (kk : Byte) (n : RowCount)

@[simp] theorem opField_formatA : opField (formatA op nnn) = op := by
  apply BitVec.eq_of_toNat_eq; rw [opField_toNat, formatA_toNat]; omega

@[simp] theorem nnnField_formatA : nnnField (formatA op nnn) = nnn := by
  apply BitVec.eq_of_toNat_eq; rw [nnnField_toNat, formatA_toNat]; omega

@[simp] theorem opField_formatXK : opField (formatXK op x kk) = op := by
  apply BitVec.eq_of_toNat_eq; rw [opField_toNat, formatXK_toNat]; omega

@[simp] theorem xField_formatXK : xField (formatXK op x kk) = x := by
  apply Fin.ext; rw [xField_val, formatXK_toNat]; omega

@[simp] theorem kkField_formatXK : kkField (formatXK op x kk) = kk := by
  apply BitVec.eq_of_toNat_eq; rw [kkField_toNat, formatXK_toNat]; omega

@[simp] theorem opField_formatXYN : opField (formatXYN op x y n) = op := by
  apply BitVec.eq_of_toNat_eq; rw [opField_toNat, formatXYN_toNat]; omega

@[simp] theorem xField_formatXYN : xField (formatXYN op x y n) = x := by
  apply Fin.ext; rw [xField_val, formatXYN_toNat]; omega

@[simp] theorem yField_formatXYN : yField (formatXYN op x y n) = y := by
  apply Fin.ext; rw [yField_val, formatXYN_toNat]; omega

@[simp] theorem nField_formatXYN : nField (formatXYN op x y n) = n := by
  apply Fin.ext; rw [nField_val, formatXYN_toNat]; omega

end

/-! ### The decoder by the value of the top 4 bits (R94) -/

section
variable {w : Word}

theorem decode_op0 (h : (opField w).toNat = 0x0) : decode w = decodeGroup0 w := by
  unfold decode; rw [h]; rfl

theorem decode_op1 (h : (opField w).toNat = 0x1) : decode w = .ok (.jp (nnnField w)) := by
  unfold decode; rw [h]; rfl

theorem decode_op2 (h : (opField w).toNat = 0x2) : decode w = .ok (.call (nnnField w)) := by
  unfold decode; rw [h]; rfl

theorem decode_op3 (h : (opField w).toNat = 0x3) : decode w = .ok (.seVxKk (xField w) (kkField w)) := by
  unfold decode; rw [h]; rfl

theorem decode_op4 (h : (opField w).toNat = 0x4) : decode w = .ok (.sneVxKk (xField w) (kkField w)) := by
  unfold decode; rw [h]; rfl

theorem decode_op5 (h : (opField w).toNat = 0x5) :
    decode w = if nField w = 0 then .ok (.seVxVy (xField w) (yField w)) else .error .group5 := by
  unfold decode; rw [h]; rfl

theorem decode_op6 (h : (opField w).toNat = 0x6) : decode w = .ok (.ldVxKk (xField w) (kkField w)) := by
  unfold decode; rw [h]; rfl

theorem decode_op7 (h : (opField w).toNat = 0x7) : decode w = .ok (.addVxKk (xField w) (kkField w)) := by
  unfold decode; rw [h]; rfl

theorem decode_op8 (h : (opField w).toNat = 0x8) : decode w = decodeGroup8 w := by
  unfold decode; rw [h]; rfl

theorem decode_op9 (h : (opField w).toNat = 0x9) :
    decode w = if nField w = 0 then .ok (.sneVxVy (xField w) (yField w)) else .error .group9 := by
  unfold decode; rw [h]; rfl

theorem decode_opA (h : (opField w).toNat = 0xA) : decode w = .ok (.ldINnn (nnnField w)) := by
  unfold decode; rw [h]; rfl

theorem decode_opB (h : (opField w).toNat = 0xB) : decode w = .ok (.jpV0Nnn (nnnField w)) := by
  unfold decode; rw [h]; rfl

theorem decode_opC (h : (opField w).toNat = 0xC) : decode w = .ok (.rndVxKk (xField w) (kkField w)) := by
  unfold decode; rw [h]; rfl

theorem decode_opD (h : (opField w).toNat = 0xD) : decode w = .ok (.drwVxVyN (xField w) (yField w) (nField w)) := by
  unfold decode; rw [h]; rfl

theorem decode_opE (h : (opField w).toNat = 0xE) : decode w = decodeGroupE w := by
  unfold decode; rw [h]; rfl

theorem decode_opF (h : (opField w).toNat = 0xF) : decode w = decodeGroupF w := by
  unfold decode; rw [h]; rfl

end

end Sys2Proof
end

