-- ==== Sys2Proof/Laws/State.lean ====
section
/-! SUPPORT. Beside State: one lemma per field per update, true by rfl, so that no later proof unfolds a record update. -/

namespace Sys2Proof.Machine

/-! ### setReg -/

@[simp] theorem setReg_v (x : RegIdx) (b : Byte) (s : State) : (setReg x b s).v = s.v.set x b := rfl
@[simp] theorem setReg_i (x : RegIdx) (b : Byte) (s : State) : (setReg x b s).i = s.i := rfl
@[simp] theorem setReg_pc (x : RegIdx) (b : Byte) (s : State) : (setReg x b s).pc = s.pc := rfl
@[simp] theorem setReg_dt (x : RegIdx) (b : Byte) (s : State) : (setReg x b s).dt = s.dt := rfl
@[simp] theorem setReg_st (x : RegIdx) (b : Byte) (s : State) : (setReg x b s).st = s.st := rfl
@[simp] theorem setReg_stack (x : RegIdx) (b : Byte) (s : State) : (setReg x b s).stack = s.stack := rfl
@[simp] theorem setReg_sp (x : RegIdx) (b : Byte) (s : State) : (setReg x b s).sp = s.sp := rfl
@[simp] theorem setReg_key (x : RegIdx) (b : Byte) (s : State) : (setReg x b s).key = s.key := rfl
@[simp] theorem setReg_waiting (x : RegIdx) (b : Byte) (s : State) : (setReg x b s).waiting = s.waiting := rfl
@[simp] theorem setReg_waitreg (x : RegIdx) (b : Byte) (s : State) : (setReg x b s).waitreg = s.waitreg := rfl
@[simp] theorem setReg_mem (x : RegIdx) (b : Byte) (s : State) : (setReg x b s).mem = s.mem := rfl
@[simp] theorem setReg_disp (x : RegIdx) (b : Byte) (s : State) : (setReg x b s).disp = s.disp := rfl
@[simp] theorem setReg_config (x : RegIdx) (b : Byte) (s : State) : (setReg x b s).config = s.config := rfl
@[simp] theorem setReg_draws (x : RegIdx) (b : Byte) (s : State) : (setReg x b s).draws = s.draws := rfl

/-! ### setI -/

@[simp] theorem setI_v (w : Word) (s : State) : (setI w s).v = s.v := rfl
@[simp] theorem setI_i (w : Word) (s : State) : (setI w s).i = w := rfl
@[simp] theorem setI_pc (w : Word) (s : State) : (setI w s).pc = s.pc := rfl
@[simp] theorem setI_dt (w : Word) (s : State) : (setI w s).dt = s.dt := rfl
@[simp] theorem setI_st (w : Word) (s : State) : (setI w s).st = s.st := rfl
@[simp] theorem setI_stack (w : Word) (s : State) : (setI w s).stack = s.stack := rfl
@[simp] theorem setI_sp (w : Word) (s : State) : (setI w s).sp = s.sp := rfl
@[simp] theorem setI_key (w : Word) (s : State) : (setI w s).key = s.key := rfl
@[simp] theorem setI_waiting (w : Word) (s : State) : (setI w s).waiting = s.waiting := rfl
@[simp] theorem setI_waitreg (w : Word) (s : State) : (setI w s).waitreg = s.waitreg := rfl
@[simp] theorem setI_mem (w : Word) (s : State) : (setI w s).mem = s.mem := rfl
@[simp] theorem setI_disp (w : Word) (s : State) : (setI w s).disp = s.disp := rfl
@[simp] theorem setI_config (w : Word) (s : State) : (setI w s).config = s.config := rfl
@[simp] theorem setI_draws (w : Word) (s : State) : (setI w s).draws = s.draws := rfl

/-! ### setDt -/

@[simp] theorem setDt_v (b : Byte) (s : State) : (setDt b s).v = s.v := rfl
@[simp] theorem setDt_i (b : Byte) (s : State) : (setDt b s).i = s.i := rfl
@[simp] theorem setDt_pc (b : Byte) (s : State) : (setDt b s).pc = s.pc := rfl
@[simp] theorem setDt_dt (b : Byte) (s : State) : (setDt b s).dt = b := rfl
@[simp] theorem setDt_st (b : Byte) (s : State) : (setDt b s).st = s.st := rfl
@[simp] theorem setDt_stack (b : Byte) (s : State) : (setDt b s).stack = s.stack := rfl
@[simp] theorem setDt_sp (b : Byte) (s : State) : (setDt b s).sp = s.sp := rfl
@[simp] theorem setDt_key (b : Byte) (s : State) : (setDt b s).key = s.key := rfl
@[simp] theorem setDt_waiting (b : Byte) (s : State) : (setDt b s).waiting = s.waiting := rfl
@[simp] theorem setDt_waitreg (b : Byte) (s : State) : (setDt b s).waitreg = s.waitreg := rfl
@[simp] theorem setDt_mem (b : Byte) (s : State) : (setDt b s).mem = s.mem := rfl
@[simp] theorem setDt_disp (b : Byte) (s : State) : (setDt b s).disp = s.disp := rfl
@[simp] theorem setDt_config (b : Byte) (s : State) : (setDt b s).config = s.config := rfl
@[simp] theorem setDt_draws (b : Byte) (s : State) : (setDt b s).draws = s.draws := rfl

/-! ### setSt -/

@[simp] theorem setSt_v (b : Byte) (s : State) : (setSt b s).v = s.v := rfl
@[simp] theorem setSt_i (b : Byte) (s : State) : (setSt b s).i = s.i := rfl
@[simp] theorem setSt_pc (b : Byte) (s : State) : (setSt b s).pc = s.pc := rfl
@[simp] theorem setSt_dt (b : Byte) (s : State) : (setSt b s).dt = s.dt := rfl
@[simp] theorem setSt_st (b : Byte) (s : State) : (setSt b s).st = b := rfl
@[simp] theorem setSt_stack (b : Byte) (s : State) : (setSt b s).stack = s.stack := rfl
@[simp] theorem setSt_sp (b : Byte) (s : State) : (setSt b s).sp = s.sp := rfl
@[simp] theorem setSt_key (b : Byte) (s : State) : (setSt b s).key = s.key := rfl
@[simp] theorem setSt_waiting (b : Byte) (s : State) : (setSt b s).waiting = s.waiting := rfl
@[simp] theorem setSt_waitreg (b : Byte) (s : State) : (setSt b s).waitreg = s.waitreg := rfl
@[simp] theorem setSt_mem (b : Byte) (s : State) : (setSt b s).mem = s.mem := rfl
@[simp] theorem setSt_disp (b : Byte) (s : State) : (setSt b s).disp = s.disp := rfl
@[simp] theorem setSt_config (b : Byte) (s : State) : (setSt b s).config = s.config := rfl
@[simp] theorem setSt_draws (b : Byte) (s : State) : (setSt b s).draws = s.draws := rfl

/-! ### beginWait -/

@[simp] theorem beginWait_v (x : RegIdx) (s : State) : (beginWait x s).v = s.v := rfl
@[simp] theorem beginWait_i (x : RegIdx) (s : State) : (beginWait x s).i = s.i := rfl
@[simp] theorem beginWait_pc (x : RegIdx) (s : State) : (beginWait x s).pc = s.pc := rfl
@[simp] theorem beginWait_dt (x : RegIdx) (s : State) : (beginWait x s).dt = s.dt := rfl
@[simp] theorem beginWait_st (x : RegIdx) (s : State) : (beginWait x s).st = s.st := rfl
@[simp] theorem beginWait_stack (x : RegIdx) (s : State) : (beginWait x s).stack = s.stack := rfl
@[simp] theorem beginWait_sp (x : RegIdx) (s : State) : (beginWait x s).sp = s.sp := rfl
@[simp] theorem beginWait_key (x : RegIdx) (s : State) : (beginWait x s).key = s.key := rfl
@[simp] theorem beginWait_waiting (x : RegIdx) (s : State) : (beginWait x s).waiting = true := rfl
@[simp] theorem beginWait_waitreg (x : RegIdx) (s : State) : (beginWait x s).waitreg = x := rfl
@[simp] theorem beginWait_mem (x : RegIdx) (s : State) : (beginWait x s).mem = s.mem := rfl
@[simp] theorem beginWait_disp (x : RegIdx) (s : State) : (beginWait x s).disp = s.disp := rfl
@[simp] theorem beginWait_config (x : RegIdx) (s : State) : (beginWait x s).config = s.config := rfl
@[simp] theorem beginWait_draws (x : RegIdx) (s : State) : (beginWait x s).draws = s.draws := rfl

/-! ### setPc -/

@[simp] theorem setPc_v (w : Word) (s : State) : (setPc w s).v = s.v := rfl
@[simp] theorem setPc_i (w : Word) (s : State) : (setPc w s).i = s.i := rfl
@[simp] theorem setPc_pc (w : Word) (s : State) : (setPc w s).pc = w := rfl
@[simp] theorem setPc_dt (w : Word) (s : State) : (setPc w s).dt = s.dt := rfl
@[simp] theorem setPc_st (w : Word) (s : State) : (setPc w s).st = s.st := rfl
@[simp] theorem setPc_stack (w : Word) (s : State) : (setPc w s).stack = s.stack := rfl
@[simp] theorem setPc_sp (w : Word) (s : State) : (setPc w s).sp = s.sp := rfl
@[simp] theorem setPc_key (w : Word) (s : State) : (setPc w s).key = s.key := rfl
@[simp] theorem setPc_waiting (w : Word) (s : State) : (setPc w s).waiting = s.waiting := rfl
@[simp] theorem setPc_waitreg (w : Word) (s : State) : (setPc w s).waitreg = s.waitreg := rfl
@[simp] theorem setPc_mem (w : Word) (s : State) : (setPc w s).mem = s.mem := rfl
@[simp] theorem setPc_disp (w : Word) (s : State) : (setPc w s).disp = s.disp := rfl
@[simp] theorem setPc_config (w : Word) (s : State) : (setPc w s).config = s.config := rfl
@[simp] theorem setPc_draws (w : Word) (s : State) : (setPc w s).draws = s.draws := rfl

/-! ### nextPc -/

@[simp] theorem nextPc_v (s : State) : (nextPc s).v = s.v := rfl
@[simp] theorem nextPc_i (s : State) : (nextPc s).i = s.i := rfl
@[simp] theorem nextPc_pc (s : State) : (nextPc s).pc = s.pc + 2 := rfl
@[simp] theorem nextPc_dt (s : State) : (nextPc s).dt = s.dt := rfl
@[simp] theorem nextPc_st (s : State) : (nextPc s).st = s.st := rfl
@[simp] theorem nextPc_stack (s : State) : (nextPc s).stack = s.stack := rfl
@[simp] theorem nextPc_sp (s : State) : (nextPc s).sp = s.sp := rfl
@[simp] theorem nextPc_key (s : State) : (nextPc s).key = s.key := rfl
@[simp] theorem nextPc_waiting (s : State) : (nextPc s).waiting = s.waiting := rfl
@[simp] theorem nextPc_waitreg (s : State) : (nextPc s).waitreg = s.waitreg := rfl
@[simp] theorem nextPc_mem (s : State) : (nextPc s).mem = s.mem := rfl
@[simp] theorem nextPc_disp (s : State) : (nextPc s).disp = s.disp := rfl
@[simp] theorem nextPc_config (s : State) : (nextPc s).config = s.config := rfl
@[simp] theorem nextPc_draws (s : State) : (nextPc s).draws = s.draws := rfl

/-! ### skipIf -/

@[simp] theorem skipIf_v (c : Bool) (s : State) : (skipIf c s).v = s.v := rfl
@[simp] theorem skipIf_i (c : Bool) (s : State) : (skipIf c s).i = s.i := rfl
@[simp] theorem skipIf_pc (c : Bool) (s : State) :
    (skipIf c s).pc = if c then s.pc + 4 else s.pc + 2 := rfl
@[simp] theorem skipIf_dt (c : Bool) (s : State) : (skipIf c s).dt = s.dt := rfl
@[simp] theorem skipIf_st (c : Bool) (s : State) : (skipIf c s).st = s.st := rfl
@[simp] theorem skipIf_stack (c : Bool) (s : State) : (skipIf c s).stack = s.stack := rfl
@[simp] theorem skipIf_sp (c : Bool) (s : State) : (skipIf c s).sp = s.sp := rfl
@[simp] theorem skipIf_key (c : Bool) (s : State) : (skipIf c s).key = s.key := rfl
@[simp] theorem skipIf_waiting (c : Bool) (s : State) : (skipIf c s).waiting = s.waiting := rfl
@[simp] theorem skipIf_waitreg (c : Bool) (s : State) : (skipIf c s).waitreg = s.waitreg := rfl
@[simp] theorem skipIf_mem (c : Bool) (s : State) : (skipIf c s).mem = s.mem := rfl
@[simp] theorem skipIf_disp (c : Bool) (s : State) : (skipIf c s).disp = s.disp := rfl
@[simp] theorem skipIf_config (c : Bool) (s : State) : (skipIf c s).config = s.config := rfl
@[simp] theorem skipIf_draws (c : Bool) (s : State) : (skipIf c s).draws = s.draws := rfl

/-! ### writeByte -/

@[simp] theorem writeByte_v (a : Nat) (b : Byte) (s : State) : (writeByte a b s).v = s.v := rfl
@[simp] theorem writeByte_i (a : Nat) (b : Byte) (s : State) : (writeByte a b s).i = s.i := rfl
@[simp] theorem writeByte_pc (a : Nat) (b : Byte) (s : State) : (writeByte a b s).pc = s.pc := rfl
@[simp] theorem writeByte_dt (a : Nat) (b : Byte) (s : State) : (writeByte a b s).dt = s.dt := rfl
@[simp] theorem writeByte_st (a : Nat) (b : Byte) (s : State) : (writeByte a b s).st = s.st := rfl
@[simp] theorem writeByte_stack (a : Nat) (b : Byte) (s : State) : (writeByte a b s).stack = s.stack := rfl
@[simp] theorem writeByte_sp (a : Nat) (b : Byte) (s : State) : (writeByte a b s).sp = s.sp := rfl
@[simp] theorem writeByte_key (a : Nat) (b : Byte) (s : State) : (writeByte a b s).key = s.key := rfl
@[simp] theorem writeByte_waiting (a : Nat) (b : Byte) (s : State) : (writeByte a b s).waiting = s.waiting := rfl
@[simp] theorem writeByte_waitreg (a : Nat) (b : Byte) (s : State) : (writeByte a b s).waitreg = s.waitreg := rfl
@[simp] theorem writeByte_mem (a : Nat) (b : Byte) (s : State) : (writeByte a b s).mem = s.mem.write s.config.glyphTable (memIndex a) b := rfl
@[simp] theorem writeByte_disp (a : Nat) (b : Byte) (s : State) : (writeByte a b s).disp = s.disp := rfl
@[simp] theorem writeByte_config (a : Nat) (b : Byte) (s : State) : (writeByte a b s).config = s.config := rfl
@[simp] theorem writeByte_draws (a : Nat) (b : Byte) (s : State) : (writeByte a b s).draws = s.draws := rfl

/-! ### setDisp -/

@[simp] theorem setDisp_v (d : Display) (s : State) : (setDisp d s).v = s.v := rfl
@[simp] theorem setDisp_i (d : Display) (s : State) : (setDisp d s).i = s.i := rfl
@[simp] theorem setDisp_pc (d : Display) (s : State) : (setDisp d s).pc = s.pc := rfl
@[simp] theorem setDisp_dt (d : Display) (s : State) : (setDisp d s).dt = s.dt := rfl
@[simp] theorem setDisp_st (d : Display) (s : State) : (setDisp d s).st = s.st := rfl
@[simp] theorem setDisp_stack (d : Display) (s : State) : (setDisp d s).stack = s.stack := rfl
@[simp] theorem setDisp_sp (d : Display) (s : State) : (setDisp d s).sp = s.sp := rfl
@[simp] theorem setDisp_key (d : Display) (s : State) : (setDisp d s).key = s.key := rfl
@[simp] theorem setDisp_waiting (d : Display) (s : State) : (setDisp d s).waiting = s.waiting := rfl
@[simp] theorem setDisp_waitreg (d : Display) (s : State) : (setDisp d s).waitreg = s.waitreg := rfl
@[simp] theorem setDisp_mem (d : Display) (s : State) : (setDisp d s).mem = s.mem := rfl
@[simp] theorem setDisp_disp (d : Display) (s : State) : (setDisp d s).disp = d := rfl
@[simp] theorem setDisp_config (d : Display) (s : State) : (setDisp d s).config = s.config := rfl
@[simp] theorem setDisp_draws (d : Display) (s : State) : (setDisp d s).draws = s.draws := rfl

/-! ### advanceDraws -/

@[simp] theorem advanceDraws_v (s : State) : (advanceDraws s).v = s.v := rfl
@[simp] theorem advanceDraws_i (s : State) : (advanceDraws s).i = s.i := rfl
@[simp] theorem advanceDraws_pc (s : State) : (advanceDraws s).pc = s.pc := rfl
@[simp] theorem advanceDraws_dt (s : State) : (advanceDraws s).dt = s.dt := rfl
@[simp] theorem advanceDraws_st (s : State) : (advanceDraws s).st = s.st := rfl
@[simp] theorem advanceDraws_stack (s : State) : (advanceDraws s).stack = s.stack := rfl
@[simp] theorem advanceDraws_sp (s : State) : (advanceDraws s).sp = s.sp := rfl
@[simp] theorem advanceDraws_key (s : State) : (advanceDraws s).key = s.key := rfl
@[simp] theorem advanceDraws_waiting (s : State) : (advanceDraws s).waiting = s.waiting := rfl
@[simp] theorem advanceDraws_waitreg (s : State) : (advanceDraws s).waitreg = s.waitreg := rfl
@[simp] theorem advanceDraws_mem (s : State) : (advanceDraws s).mem = s.mem := rfl
@[simp] theorem advanceDraws_disp (s : State) : (advanceDraws s).disp = s.disp := rfl
@[simp] theorem advanceDraws_config (s : State) : (advanceDraws s).config = s.config := rfl
@[simp] theorem advanceDraws_draws (s : State) : (advanceDraws s).draws = s.draws + 1 := rfl

/-! ### setFlagAndReg -/

@[simp] theorem setFlagAndReg_v (x : RegIdx) (c : Bool) (b : Byte) (s : State) : (setFlagAndReg x c b s).v = (s.v.set flagReg (flagByte c)).set x b := rfl
@[simp] theorem setFlagAndReg_i (x : RegIdx) (c : Bool) (b : Byte) (s : State) : (setFlagAndReg x c b s).i = s.i := rfl
@[simp] theorem setFlagAndReg_pc (x : RegIdx) (c : Bool) (b : Byte) (s : State) : (setFlagAndReg x c b s).pc = s.pc := rfl
@[simp] theorem setFlagAndReg_dt (x : RegIdx) (c : Bool) (b : Byte) (s : State) : (setFlagAndReg x c b s).dt = s.dt := rfl
@[simp] theorem setFlagAndReg_st (x : RegIdx) (c : Bool) (b : Byte) (s : State) : (setFlagAndReg x c b s).st = s.st := rfl
@[simp] theorem setFlagAndReg_stack (x : RegIdx) (c : Bool) (b : Byte) (s : State) : (setFlagAndReg x c b s).stack = s.stack := rfl
@[simp] theorem setFlagAndReg_sp (x : RegIdx) (c : Bool) (b : Byte) (s : State) : (setFlagAndReg x c b s).sp = s.sp := rfl
@[simp] theorem setFlagAndReg_key (x : RegIdx) (c : Bool) (b : Byte) (s : State) : (setFlagAndReg x c b s).key = s.key := rfl
@[simp] theorem setFlagAndReg_waiting (x : RegIdx) (c : Bool) (b : Byte) (s : State) : (setFlagAndReg x c b s).waiting = s.waiting := rfl
@[simp] theorem setFlagAndReg_waitreg (x : RegIdx) (c : Bool) (b : Byte) (s : State) : (setFlagAndReg x c b s).waitreg = s.waitreg := rfl
@[simp] theorem setFlagAndReg_mem (x : RegIdx) (c : Bool) (b : Byte) (s : State) : (setFlagAndReg x c b s).mem = s.mem := rfl
@[simp] theorem setFlagAndReg_disp (x : RegIdx) (c : Bool) (b : Byte) (s : State) : (setFlagAndReg x c b s).disp = s.disp := rfl
@[simp] theorem setFlagAndReg_config (x : RegIdx) (c : Bool) (b : Byte) (s : State) : (setFlagAndReg x c b s).config = s.config := rfl
@[simp] theorem setFlagAndReg_draws (x : RegIdx) (c : Bool) (b : Byte) (s : State) : (setFlagAndReg x c b s).draws = s.draws := rfl

/-! ### loadRegBlock -/

@[simp] theorem loadRegBlock_i (x : RegIdx) (s : State) : (loadRegBlock x s).i = s.i := rfl
@[simp] theorem loadRegBlock_pc (x : RegIdx) (s : State) : (loadRegBlock x s).pc = s.pc := rfl
@[simp] theorem loadRegBlock_dt (x : RegIdx) (s : State) : (loadRegBlock x s).dt = s.dt := rfl
@[simp] theorem loadRegBlock_st (x : RegIdx) (s : State) : (loadRegBlock x s).st = s.st := rfl
@[simp] theorem loadRegBlock_stack (x : RegIdx) (s : State) : (loadRegBlock x s).stack = s.stack := rfl
@[simp] theorem loadRegBlock_sp (x : RegIdx) (s : State) : (loadRegBlock x s).sp = s.sp := rfl
@[simp] theorem loadRegBlock_key (x : RegIdx) (s : State) : (loadRegBlock x s).key = s.key := rfl
@[simp] theorem loadRegBlock_waiting (x : RegIdx) (s : State) : (loadRegBlock x s).waiting = s.waiting := rfl
@[simp] theorem loadRegBlock_waitreg (x : RegIdx) (s : State) : (loadRegBlock x s).waitreg = s.waitreg := rfl
@[simp] theorem loadRegBlock_mem (x : RegIdx) (s : State) : (loadRegBlock x s).mem = s.mem := rfl
@[simp] theorem loadRegBlock_disp (x : RegIdx) (s : State) : (loadRegBlock x s).disp = s.disp := rfl
@[simp] theorem loadRegBlock_config (x : RegIdx) (s : State) : (loadRegBlock x s).config = s.config := rfl
@[simp] theorem loadRegBlock_draws (x : RegIdx) (s : State) : (loadRegBlock x s).draws = s.draws := rfl

/-! ### latchKey -/

@[simp] theorem latchKey_v (k : KeyIdx) (p : Bool) (s : State) : (latchKey k p s).v = s.v := rfl
@[simp] theorem latchKey_i (k : KeyIdx) (p : Bool) (s : State) : (latchKey k p s).i = s.i := rfl
@[simp] theorem latchKey_pc (k : KeyIdx) (p : Bool) (s : State) : (latchKey k p s).pc = s.pc := rfl
@[simp] theorem latchKey_dt (k : KeyIdx) (p : Bool) (s : State) : (latchKey k p s).dt = s.dt := rfl
@[simp] theorem latchKey_st (k : KeyIdx) (p : Bool) (s : State) : (latchKey k p s).st = s.st := rfl
@[simp] theorem latchKey_stack (k : KeyIdx) (p : Bool) (s : State) : (latchKey k p s).stack = s.stack := rfl
@[simp] theorem latchKey_sp (k : KeyIdx) (p : Bool) (s : State) : (latchKey k p s).sp = s.sp := rfl
@[simp] theorem latchKey_key (k : KeyIdx) (p : Bool) (s : State) : (latchKey k p s).key = s.key.set k p := rfl
@[simp] theorem latchKey_waiting (k : KeyIdx) (p : Bool) (s : State) : (latchKey k p s).waiting = s.waiting := rfl
@[simp] theorem latchKey_waitreg (k : KeyIdx) (p : Bool) (s : State) : (latchKey k p s).waitreg = s.waitreg := rfl
@[simp] theorem latchKey_mem (k : KeyIdx) (p : Bool) (s : State) : (latchKey k p s).mem = s.mem := rfl
@[simp] theorem latchKey_disp (k : KeyIdx) (p : Bool) (s : State) : (latchKey k p s).disp = s.disp := rfl
@[simp] theorem latchKey_config (k : KeyIdx) (p : Bool) (s : State) : (latchKey k p s).config = s.config := rfl
@[simp] theorem latchKey_draws (k : KeyIdx) (p : Bool) (s : State) : (latchKey k p s).draws = s.draws := rfl

/-! ### resolveWait -/

@[simp] theorem resolveWait_v (k : KeyIdx) (s : State) : (resolveWait k s).v = s.v.set s.waitreg (BitVec.ofNat 8 k.val) := rfl
@[simp] theorem resolveWait_i (k : KeyIdx) (s : State) : (resolveWait k s).i = s.i := rfl
@[simp] theorem resolveWait_pc (k : KeyIdx) (s : State) : (resolveWait k s).pc = s.pc := rfl
@[simp] theorem resolveWait_dt (k : KeyIdx) (s : State) : (resolveWait k s).dt = s.dt := rfl
@[simp] theorem resolveWait_st (k : KeyIdx) (s : State) : (resolveWait k s).st = s.st := rfl
@[simp] theorem resolveWait_stack (k : KeyIdx) (s : State) : (resolveWait k s).stack = s.stack := rfl
@[simp] theorem resolveWait_sp (k : KeyIdx) (s : State) : (resolveWait k s).sp = s.sp := rfl
@[simp] theorem resolveWait_key (k : KeyIdx) (s : State) : (resolveWait k s).key = s.key := rfl
@[simp] theorem resolveWait_waiting (k : KeyIdx) (s : State) : (resolveWait k s).waiting = false := rfl
@[simp] theorem resolveWait_waitreg (k : KeyIdx) (s : State) : (resolveWait k s).waitreg = s.waitreg := rfl
@[simp] theorem resolveWait_mem (k : KeyIdx) (s : State) : (resolveWait k s).mem = s.mem := rfl
@[simp] theorem resolveWait_disp (k : KeyIdx) (s : State) : (resolveWait k s).disp = s.disp := rfl
@[simp] theorem resolveWait_config (k : KeyIdx) (s : State) : (resolveWait k s).config = s.config := rfl
@[simp] theorem resolveWait_draws (k : KeyIdx) (s : State) : (resolveWait k s).draws = s.draws := rfl

/-! ### Byte reads see only memory and the glyph table -/

@[simp] theorem readByte_setReg (a : Nat) (x : RegIdx) (b : Byte) (s : State) : readByte a (setReg x b s) = readByte a s := rfl
@[simp] theorem readByte_setI (a : Nat) (w : Word) (s : State) : readByte a (setI w s) = readByte a s := rfl
@[simp] theorem readByte_setDt (a : Nat) (b : Byte) (s : State) : readByte a (setDt b s) = readByte a s := rfl
@[simp] theorem readByte_setSt (a : Nat) (b : Byte) (s : State) : readByte a (setSt b s) = readByte a s := rfl
@[simp] theorem readByte_beginWait (a : Nat) (x : RegIdx) (s : State) : readByte a (beginWait x s) = readByte a s := rfl
@[simp] theorem readByte_setPc (a : Nat) (w : Word) (s : State) : readByte a (setPc w s) = readByte a s := rfl
@[simp] theorem readByte_nextPc (a : Nat) (s : State) : readByte a (nextPc s) = readByte a s := rfl
@[simp] theorem readByte_skipIf (a : Nat) (c : Bool) (s : State) : readByte a (skipIf c s) = readByte a s := rfl
@[simp] theorem readByte_setDisp (a : Nat) (d : Display) (s : State) : readByte a (setDisp d s) = readByte a s := rfl
@[simp] theorem readByte_advanceDraws (a : Nat) (s : State) : readByte a (advanceDraws s) = readByte a s := rfl
@[simp] theorem readByte_setFlagAndReg (a : Nat) (x : RegIdx) (c : Bool) (b : Byte) (s : State) : readByte a (setFlagAndReg x c b s) = readByte a s := rfl
@[simp] theorem readByte_loadRegBlock (a : Nat) (x : RegIdx) (s : State) : readByte a (loadRegBlock x s) = readByte a s := rfl
@[simp] theorem readByte_latchKey (a : Nat) (k : KeyIdx) (p : Bool) (s : State) : readByte a (latchKey k p s) = readByte a s := rfl
@[simp] theorem readByte_resolveWait (a : Nat) (k : KeyIdx) (s : State) : readByte a (resolveWait k s) = readByte a s := rfl

/-! ### Register reads see only the register file -/

@[simp] theorem getReg_setI (z : RegIdx) (w : Word) (s : State) : getReg z (setI w s) = getReg z s := rfl
@[simp] theorem getReg_setDt (z : RegIdx) (b : Byte) (s : State) : getReg z (setDt b s) = getReg z s := rfl
@[simp] theorem getReg_setSt (z : RegIdx) (b : Byte) (s : State) : getReg z (setSt b s) = getReg z s := rfl
@[simp] theorem getReg_beginWait (z : RegIdx) (x : RegIdx) (s : State) : getReg z (beginWait x s) = getReg z s := rfl
@[simp] theorem getReg_setPc (z : RegIdx) (w : Word) (s : State) : getReg z (setPc w s) = getReg z s := rfl
@[simp] theorem getReg_nextPc (z : RegIdx) (s : State) : getReg z (nextPc s) = getReg z s := rfl
@[simp] theorem getReg_skipIf (z : RegIdx) (c : Bool) (s : State) : getReg z (skipIf c s) = getReg z s := rfl
@[simp] theorem getReg_writeByte (z : RegIdx) (a : Nat) (b : Byte) (s : State) : getReg z (writeByte a b s) = getReg z s := rfl
@[simp] theorem getReg_setDisp (z : RegIdx) (d : Display) (s : State) : getReg z (setDisp d s) = getReg z s := rfl
@[simp] theorem getReg_advanceDraws (z : RegIdx) (s : State) : getReg z (advanceDraws s) = getReg z s := rfl
@[simp] theorem getReg_latchKey (z : RegIdx) (k : KeyIdx) (p : Bool) (s : State) : getReg z (latchKey k p s) = getReg z s := rfl

end Sys2Proof.Machine
end

