-- ==== Sys2Proof/Laws/Display.lean ====
section
/-! SUPPORT. What a blit can do: each covered cell of the buffer is inverted, and the collision is a covered cell that
was lit. -/

namespace Sys2Proof.Machine

theorem Display.lit_toggle (d : Display) (j k : Nat) :
    (d.toggle j).lit k = (d.lit k ^^ decide (j = k ∧ j < 4096)) := by
  unfold Display.toggle
  split
  · rename_i hj
    unfold Display.lit
    split
    · rename_i hk
      simp only [Vector.getElem_set]
      split
      · rename_i hrow
        simp only [BitVec.getLsbD_xor, BitVec.getLsbD_twoPow, hrow]
        congr 1
        simp only [Bool.and_eq_decide, decide_eq_true_eq, decide_eq_decide]
        omega
      · rename_i hrow
        have : j ≠ k := by rintro rfl; exact hrow rfl
        simp [this]
    · have : j ≠ k := by omega
      simp [this]
  · rename_i hj
    simp [hj]

theorem Display.lit_blank (j : Nat) : Display.blank.lit j = false := by
  unfold Display.lit Display.blank
  split <;> simp

theorem Display.lit_of_ge (d : Display) {j : Nat} (h : ¬ j < 4096) : d.lit j = false := by
  simp [Display.lit, h]

/-- A blit over cells that are all different: the covered cells inverted. -/
theorem foldl_plot_fst (cells : List Nat) : ∀ (d : Display) (c : Bool), cells.Nodup → ∀ k,
    (cells.foldl plot (d, c)).1.lit k = (d.lit k ^^ decide (k ∈ cells ∧ k < 4096)) := by
  induction cells with
  | nil => intro d c _ k; simp
  | cons j cells ih =>
    intro d c hn k
    rw [List.nodup_cons] at hn
    simp only [List.foldl_cons, plot]
    rw [ih _ _ hn.2, Display.lit_toggle]
    by_cases hjk : j = k
    · subst hjk
      simp [hn.1]
    · simp [hjk, Ne.symm hjk]

/-- A blit over cells that are all different: a collision is a covered cell that was lit. -/
theorem foldl_plot_snd (cells : List Nat) : ∀ (d : Display) (c : Bool), cells.Nodup →
    (cells.foldl plot (d, c)).2 = (c || decide (∃ k ∈ cells, d.lit k = true)) := by
  induction cells with
  | nil => intro d c _; simp
  | cons j cells ih =>
    intro d c hn
    rw [List.nodup_cons] at hn
    simp only [List.foldl_cons, plot]
    rw [ih _ _ hn.2, Bool.or_assoc]
    congr 1
    have : (∃ k ∈ cells, (d.toggle j).lit k = true) ↔ ∃ k ∈ cells, d.lit k = true := by
      refine exists_congr fun k => and_congr_right fun hk => ?_
      have : j ≠ k := by rintro rfl; exact hn.1 hk
      simp [Display.lit_toggle, this]
    simp [this]

theorem mem_setColumns (b : Byte) (c : Nat) : c ∈ setColumns b ↔ c < 8 ∧ b.getLsbD (7 - c) = true := by
  simp [setColumns]

theorem mem_spriteCells (vx vy n : Nat) (s : State) (j : Nat) :
    j ∈ spriteCells vx vy n s ↔
      ∃ r c, r < n ∧ c < 8 ∧ (readByte (effectiveAddr s r) s).getLsbD (7 - c) = true ∧
        j = cellIndex (vx + c) (vy + r) := by
  simp only [spriteCells, spriteRow, List.mem_flatMap, List.mem_range, List.mem_map, mem_setColumns]
  constructor
  · rintro ⟨r, hr, c, ⟨hc, hb⟩, rfl⟩
    exact ⟨r, c, hr, hc, hb, rfl⟩
  · rintro ⟨r, c, hr, hc, hb, rfl⟩
    exact ⟨r, hr, c, ⟨hc, hb⟩, rfl⟩

/-- Within one draw no cell is visited twice (R211). -/
theorem spriteCells_nodup (vx vy n : Nat) (s : State) : (spriteCells vx vy n s).Nodup := by
  unfold spriteCells
  rw [List.nodup_flatMap]
  refine ⟨fun r _ => ?_, ?_⟩
  · refine List.Nodup.map (fun a b h => ?_) (List.nodup_range.filter _)
    simp only [cellIndex] at h
    omega
  · refine List.nodup_range.imp_of_mem ?_
    intro r r' _ _ hne
    simp only [Function.onFun, List.disjoint_left, spriteRow, List.mem_map, mem_setColumns, cellIndex]
    rintro j ⟨c, ⟨hc, _⟩, rfl⟩ ⟨c', ⟨hc', _⟩, h⟩
    omega

end Sys2Proof.Machine
end

