-- ==== Sys2Proof/Laws/Memory.lean ====
section
/-! SUPPORT. What each memory operation can do, on every list of cells, and that each keeps the canonical form. -/

namespace Sys2Proof.Machine

section
variable (g : Vector Byte 80)

theorem Memory.read_erase (m : Memory) (a c : Nat) :
    Memory.read g (Memory.erase a m) c = if c = a then Memory.unlisted g a else Memory.read g m c := by
  induction m with
  | nil => simp only [Memory.erase, List.filter_nil, Memory.read]; split <;> simp_all
  | cons e m ih =>
    obtain ⟨k, b⟩ := e
    simp only [Memory.erase, List.filter_cons] at ih ⊢
    by_cases hk : k = a
    · subst hk
      simp only [ne_eq, not_true_eq_false, decide_false, Bool.false_eq_true, if_false, ih, Memory.read]
      split <;> simp_all
    · simp only [ne_eq, hk, not_false_eq_true, decide_true, if_true, Memory.read, ih]
      split <;> simp_all

theorem Memory.read_insert (m : Memory) (a c : Nat) (b : Byte) (h : ∀ e ∈ m, e.1 ≠ a) :
    Memory.read g (Memory.insert a b m) c = if c = a then b else Memory.read g m c := by
  induction m with
  | nil => rfl
  | cons e m ih =>
    obtain ⟨k, d⟩ := e
    have hk : k ≠ a := h (k, d) (by simp)
    have ih := ih fun e he => h e (by simp [he])
    simp only [Memory.insert]
    split
    · rfl
    · simp only [Memory.read, ih]
      split <;> simp_all

theorem Memory.erase_ne (m : Memory) (a : Nat) : ∀ e ∈ Memory.erase a m, e.1 ≠ a := by
  simp [Memory.erase]

/-- A read after a write: the byte written at its address, what was there elsewhere. It holds of every list of cells,
canonical or not. -/
theorem Memory.read_write (m : Memory) (a c : Nat) (b : Byte) :
    Memory.read g (Memory.write g m a b) c = if c = a then b else Memory.read g m c := by
  unfold Memory.write
  split
  · rename_i h
    rw [Memory.read_erase, h]
  · rw [Memory.read_insert g _ a c b (Memory.erase_ne m a), Memory.read_erase]
    split <;> rfl

theorem Memory.wfFrom_mono {lo lo' : Nat} {m : Memory} (h : lo' ≤ lo) (w : Memory.wfFrom g lo m = true) :
    Memory.wfFrom g lo' m = true := by
  cases m with
  | nil => rfl
  | cons e m =>
    obtain ⟨k, b⟩ := e
    simp only [Memory.wfFrom, Bool.and_eq_true, decide_eq_true_eq] at w ⊢
    exact ⟨⟨⟨by omega, w.1.1.2⟩, w.1.2⟩, w.2⟩

theorem Memory.wfFrom_filter (p : Host.Cell → Bool) {m : Memory} :
    ∀ {lo : Nat}, Memory.wfFrom g lo m = true → Memory.wfFrom g lo (m.filter p) = true := by
  induction m with
  | nil => intro lo _; rfl
  | cons e m ih =>
    obtain ⟨k, b⟩ := e
    intro lo w
    simp only [Memory.wfFrom, Bool.and_eq_true, decide_eq_true_eq] at w
    simp only [List.filter_cons]
    split
    · simp only [Memory.wfFrom, Bool.and_eq_true, decide_eq_true_eq]
      exact ⟨w.1, ih w.2⟩
    · exact Memory.wfFrom_mono g (by omega) (ih w.2)

theorem Memory.wfFrom_insert {m : Memory} {a : Nat} {b : Byte} (ha : a < 4096)
    (hb : b ≠ Memory.unlisted g a) :
    ∀ {lo : Nat}, lo ≤ a → (∀ e ∈ m, e.1 ≠ a) → Memory.wfFrom g lo m = true →
      Memory.wfFrom g lo (Memory.insert a b m) = true := by
  induction m with
  | nil => intro lo hlo _ _; simp [Memory.insert, Memory.wfFrom, hlo, ha, hb]
  | cons e m ih =>
    obtain ⟨k, d⟩ := e
    intro lo hlo hne w
    have hk : k ≠ a := hne (k, d) (by simp)
    simp only [Memory.wfFrom, Bool.and_eq_true, decide_eq_true_eq] at w
    simp only [Memory.insert]
    split
    · simp only [Memory.wfFrom, Bool.and_eq_true, decide_eq_true_eq]
      exact ⟨⟨⟨hlo, ha⟩, hb⟩, ⟨⟨by omega, w.1.1.2⟩, w.1.2⟩, w.2⟩
    · simp only [Memory.wfFrom, Bool.and_eq_true, decide_eq_true_eq]
      exact ⟨w.1, ih (by omega) (fun e he => hne e (by simp [he])) w.2⟩

/-- A write inside the 4096 bytes keeps the canonical form. -/
theorem Memory.wf_write {m : Memory} {a : Nat} (b : Byte) (ha : a < 4096) (w : Memory.wf g m = true) :
    Memory.wf g (Memory.write g m a b) = true := by
  unfold Memory.write
  split
  · exact Memory.wfFrom_filter g _ w
  · rename_i hb
    exact Memory.wfFrom_insert g ha hb (Nat.zero_le a) (Memory.erase_ne m a) (Memory.wfFrom_filter g _ w)

end

theorem memIndex_lt (a : Nat) : memIndex a < 4096 := Nat.mod_lt a (by decide)

/-- `MemRead` after `MemWrite` (R60, R61). -/
theorem readByte_writeByte (c a : Nat) (b : Byte) (s : State) :
    readByte c (writeByte a b s) = if memIndex c = memIndex a then b else readByte c s := by
  simp only [readByte, writeByte, Memory.read_write]

theorem wf_writeByte (a : Nat) (b : Byte) {s : State} (w : Memory.wf s.config.glyphTable s.mem = true) :
    Memory.wf (writeByte a b s).config.glyphTable (writeByte a b s).mem = true :=
  Memory.wf_write _ b (memIndex_lt a) w

/-- `writeBytes` changes memory only. -/
theorem writeBytes_eq (bs : List Byte) : ∀ (a : Nat) (s : State),
    writeBytes a bs s = { s with mem := (writeBytes a bs s).mem } := by
  induction bs with
  | nil => intro a s; rfl
  | cons b bs ih => intro a s; simp only [writeBytes]; rw [ih]; rfl

section
variable (a : Nat) (bs : List Byte) (s : State)

@[simp] theorem writeBytes_v : (writeBytes a bs s).v = s.v := by rw [writeBytes_eq]
@[simp] theorem writeBytes_i : (writeBytes a bs s).i = s.i := by rw [writeBytes_eq]
@[simp] theorem writeBytes_pc : (writeBytes a bs s).pc = s.pc := by rw [writeBytes_eq]
@[simp] theorem writeBytes_dt : (writeBytes a bs s).dt = s.dt := by rw [writeBytes_eq]
@[simp] theorem writeBytes_st : (writeBytes a bs s).st = s.st := by rw [writeBytes_eq]
@[simp] theorem writeBytes_stack : (writeBytes a bs s).stack = s.stack := by rw [writeBytes_eq]
@[simp] theorem writeBytes_sp : (writeBytes a bs s).sp = s.sp := by rw [writeBytes_eq]
@[simp] theorem writeBytes_key : (writeBytes a bs s).key = s.key := by rw [writeBytes_eq]
@[simp] theorem writeBytes_waiting : (writeBytes a bs s).waiting = s.waiting := by rw [writeBytes_eq]
@[simp] theorem writeBytes_waitreg : (writeBytes a bs s).waitreg = s.waitreg := by rw [writeBytes_eq]
@[simp] theorem writeBytes_disp : (writeBytes a bs s).disp = s.disp := by rw [writeBytes_eq]
@[simp] theorem writeBytes_config : (writeBytes a bs s).config = s.config := by rw [writeBytes_eq]
@[simp] theorem writeBytes_draws : (writeBytes a bs s).draws = s.draws := by rw [writeBytes_eq]

@[simp] theorem getReg_writeBytes (z : RegIdx) : getReg z (writeBytes a bs s) = getReg z s := by
  simp only [getReg, writeBytes_v]

end

theorem wf_writeBytes (bs : List Byte) : ∀ (a : Nat) {s : State},
    Memory.wf s.config.glyphTable s.mem = true →
      Memory.wf (writeBytes a bs s).config.glyphTable (writeBytes a bs s).mem = true := by
  induction bs with
  | nil => intro a s w; exact w
  | cons b bs ih => intro a s w; exact ih (a + 1) (wf_writeByte a b w)

/-- Outside the stored bytes nothing changes. -/
theorem readByte_writeBytes_other (bs : List Byte) : ∀ (a c : Nat) (s : State),
    (∀ k < bs.length, memIndex c ≠ memIndex (a + k)) → readByte c (writeBytes a bs s) = readByte c s := by
  induction bs with
  | nil => intro a c s _; rfl
  | cons b bs ih =>
    intro a c s h
    simp only [writeBytes]
    rw [ih (a + 1) c _ fun k hk => by
      have := h (k + 1) (by simpa using hk)
      rwa [show a + (k + 1) = a + 1 + k by omega] at this]
    rw [readByte_writeByte, if_neg (by simpa using h 0 (by simp))]

/-- Byte `k` of a block of at most 4096 bytes stands at `a + k`. -/
theorem readByte_writeBytes_at (bs : List Byte) : ∀ (a : Nat) (s : State) (k : Nat) (hk : k < bs.length),
    bs.length ≤ 4096 → readByte (a + k) (writeBytes a bs s) = bs[k] := by
  induction bs with
  | nil => intro a s k hk; simp at hk
  | cons b bs ih =>
    intro a s k hk hlen
    simp only [List.length_cons] at hk hlen
    simp only [writeBytes]
    cases k with
    | zero =>
      rw [readByte_writeBytes_other bs (a + 1) (a + 0) _ fun k hk' => by simp only [memIndex]; omega]
      simp [readByte_writeByte]
    | succ k =>
      rw [show a + (k + 1) = a + 1 + k by omega, ih (a + 1) _ k (by omega) (by omega)]
      rfl

theorem wf_resetMemory (g : Vector Byte 80) {m : Memory} (w : Memory.wf g m = true) :
    Memory.wf g (resetMemory m) = true := Memory.wfFrom_filter g _ w

theorem read_resetMemory (g : Vector Byte 80) (m : Memory) (a : Nat) :
    (resetMemory m).read g a = if 80 ≤ a ∧ a < 0x200 then m.read g a else Memory.unlisted g a := by
  induction m with
  | nil => simp only [resetMemory, List.filter_nil, Memory.read]; split <;> rfl
  | cons e m ih =>
    obtain ⟨k, b⟩ := e
    simp only [resetMemory, List.filter_cons] at ih ⊢
    split <;> simp_all [Memory.read] <;> grind

end Sys2Proof.Machine
end

