-- ==== Sys2Proof/Laws/PerInstr.lean ====
section
/-! SUPPORT. Statements made per instruction: the primary opcode of each encoding (spec/30_encoding.md R94). -/

namespace Sys2Proof.Laws

/-- The value of the top 4 bits that selects each instruction (R94). -/
def OpField.primary : Instr → Nat
  | .cls => 0x0
  | .ret => 0x0
  | .jp _ => 0x1
  | .call _ => 0x2
  | .seVxKk _ _ => 0x3
  | .sneVxKk _ _ => 0x4
  | .seVxVy _ _ => 0x5
  | .ldVxKk _ _ => 0x6
  | .addVxKk _ _ => 0x7
  | .ldVxVy _ _ => 0x8
  | .orVxVy _ _ => 0x8
  | .andVxVy _ _ => 0x8
  | .xorVxVy _ _ => 0x8
  | .addVxVy _ _ => 0x8
  | .subVxVy _ _ => 0x8
  | .shrVxVy _ _ => 0x8
  | .subnVxVy _ _ => 0x8
  | .shlVxVy _ _ => 0x8
  | .sneVxVy _ _ => 0x9
  | .ldINnn _ => 0xA
  | .jpV0Nnn _ => 0xB
  | .rndVxKk _ _ => 0xC
  | .drwVxVyN _ _ _ => 0xD
  | .skpVx _ => 0xE
  | .sknpVx _ => 0xE
  | .ldVxDt _ => 0xF
  | .ldVxK _ => 0xF
  | .ldDtVx _ => 0xF
  | .ldStVx _ => 0xF
  | .addIVx _ => 0xF
  | .ldFVx _ => 0xF
  | .ldBVx _ => 0xF
  | .ldMemIVx _ => 0xF
  | .ldVxMemI _ => 0xF

/-- The encoding of `i` carries its primary opcode in the top 4 bits. -/
def OpField.Statement (i : Instr) : Prop := (opField (encode i)).toNat = OpField.primary i

theorem OpField.cls : OpField.Statement .cls := rfl
theorem OpField.ret : OpField.Statement .ret := rfl
theorem OpField.jp (nnn : Addr12) : OpField.Statement (.jp nnn) := by
  simp [OpField.Statement, encode, OpField.primary]
theorem OpField.call (nnn : Addr12) : OpField.Statement (.call nnn) := by
  simp [OpField.Statement, encode, OpField.primary]
theorem OpField.seVxKk (x : RegIdx) (kk : Byte) : OpField.Statement (.seVxKk x kk) := by
  simp [OpField.Statement, encode, OpField.primary]
theorem OpField.sneVxKk (x : RegIdx) (kk : Byte) : OpField.Statement (.sneVxKk x kk) := by
  simp [OpField.Statement, encode, OpField.primary]
theorem OpField.seVxVy (x : RegIdx) (y : RegIdx) : OpField.Statement (.seVxVy x y) := by
  simp [OpField.Statement, encode, OpField.primary]
theorem OpField.ldVxKk (x : RegIdx) (kk : Byte) : OpField.Statement (.ldVxKk x kk) := by
  simp [OpField.Statement, encode, OpField.primary]
theorem OpField.addVxKk (x : RegIdx) (kk : Byte) : OpField.Statement (.addVxKk x kk) := by
  simp [OpField.Statement, encode, OpField.primary]
theorem OpField.ldVxVy (x : RegIdx) (y : RegIdx) : OpField.Statement (.ldVxVy x y) := by
  simp [OpField.Statement, encode, OpField.primary]
theorem OpField.orVxVy (x : RegIdx) (y : RegIdx) : OpField.Statement (.orVxVy x y) := by
  simp [OpField.Statement, encode, OpField.primary]
theorem OpField.andVxVy (x : RegIdx) (y : RegIdx) : OpField.Statement (.andVxVy x y) := by
  simp [OpField.Statement, encode, OpField.primary]
theorem OpField.xorVxVy (x : RegIdx) (y : RegIdx) : OpField.Statement (.xorVxVy x y) := by
  simp [OpField.Statement, encode, OpField.primary]
theorem OpField.addVxVy (x : RegIdx) (y : RegIdx) : OpField.Statement (.addVxVy x y) := by
  simp [OpField.Statement, encode, OpField.primary]
theorem OpField.subVxVy (x : RegIdx) (y : RegIdx) : OpField.Statement (.subVxVy x y) := by
  simp [OpField.Statement, encode, OpField.primary]
theorem OpField.shrVxVy (x : RegIdx) (y : RegIdx) : OpField.Statement (.shrVxVy x y) := by
  simp [OpField.Statement, encode, OpField.primary]
theorem OpField.subnVxVy (x : RegIdx) (y : RegIdx) : OpField.Statement (.subnVxVy x y) := by
  simp [OpField.Statement, encode, OpField.primary]
theorem OpField.shlVxVy (x : RegIdx) (y : RegIdx) : OpField.Statement (.shlVxVy x y) := by
  simp [OpField.Statement, encode, OpField.primary]
theorem OpField.sneVxVy (x : RegIdx) (y : RegIdx) : OpField.Statement (.sneVxVy x y) := by
  simp [OpField.Statement, encode, OpField.primary]
theorem OpField.ldINnn (nnn : Addr12) : OpField.Statement (.ldINnn nnn) := by
  simp [OpField.Statement, encode, OpField.primary]
theorem OpField.jpV0Nnn (nnn : Addr12) : OpField.Statement (.jpV0Nnn nnn) := by
  simp [OpField.Statement, encode, OpField.primary]
theorem OpField.rndVxKk (x : RegIdx) (kk : Byte) : OpField.Statement (.rndVxKk x kk) := by
  simp [OpField.Statement, encode, OpField.primary]
theorem OpField.drwVxVyN (x : RegIdx) (y : RegIdx) (n : RowCount) : OpField.Statement (.drwVxVyN x y n) := by
  simp [OpField.Statement, encode, OpField.primary]
theorem OpField.skpVx (x : RegIdx) : OpField.Statement (.skpVx x) := by
  simp [OpField.Statement, encode, OpField.primary]
theorem OpField.sknpVx (x : RegIdx) : OpField.Statement (.sknpVx x) := by
  simp [OpField.Statement, encode, OpField.primary]
theorem OpField.ldVxDt (x : RegIdx) : OpField.Statement (.ldVxDt x) := by
  simp [OpField.Statement, encode, OpField.primary]
theorem OpField.ldVxK (x : RegIdx) : OpField.Statement (.ldVxK x) := by
  simp [OpField.Statement, encode, OpField.primary]
theorem OpField.ldDtVx (x : RegIdx) : OpField.Statement (.ldDtVx x) := by
  simp [OpField.Statement, encode, OpField.primary]
theorem OpField.ldStVx (x : RegIdx) : OpField.Statement (.ldStVx x) := by
  simp [OpField.Statement, encode, OpField.primary]
theorem OpField.addIVx (x : RegIdx) : OpField.Statement (.addIVx x) := by
  simp [OpField.Statement, encode, OpField.primary]
theorem OpField.ldFVx (x : RegIdx) : OpField.Statement (.ldFVx x) := by
  simp [OpField.Statement, encode, OpField.primary]
theorem OpField.ldBVx (x : RegIdx) : OpField.Statement (.ldBVx x) := by
  simp [OpField.Statement, encode, OpField.primary]
theorem OpField.ldMemIVx (x : RegIdx) : OpField.Statement (.ldMemIVx x) := by
  simp [OpField.Statement, encode, OpField.primary]
theorem OpField.ldVxMemI (x : RegIdx) : OpField.Statement (.ldVxMemI x) := by
  simp [OpField.Statement, encode, OpField.primary]

end Sys2Proof.Laws
end

