-- ==== Sys2Proof/Laws/Registers.lean ====
section
/-! SUPPORT. What each register operation can do. -/

namespace Sys2Proof.Machine

theorem getReg_setReg (z x : RegIdx) (b : Byte) (s : State) :
    getReg z (setReg x b s) = if z = x then b else getReg z s := by
  simp only [getReg, setReg, Fin.getElem_fin, Vector.getElem_set, Fin.ext_iff, eq_comm]

@[simp] theorem getReg_setReg_same (x : RegIdx) (b : Byte) (s : State) : getReg x (setReg x b s) = b := by
  simp [getReg_setReg]

theorem getReg_setReg_other {z x : RegIdx} (b : Byte) (s : State) (h : z ≠ x) :
    getReg z (setReg x b s) = getReg z s := by
  simp [getReg_setReg, h]

/-- The result write comes last, so it wins when the destination is VF (R173). -/
theorem getReg_setFlagAndReg (z x : RegIdx) (c : Bool) (b : Byte) (s : State) :
    getReg z (setFlagAndReg x c b s) =
      if z = x then b else if z = flagReg then flagByte c else getReg z s := by
  simp only [setFlagAndReg, getReg_setReg]

theorem getReg_loadRegBlock (z x : RegIdx) (s : State) :
    getReg z (loadRegBlock x s) = if z ≤ x then readByte (effectiveAddr s z.val) s else getReg z s := by
  simp [loadRegBlock, getReg]

theorem getReg_resolveWait (z : RegIdx) (k : KeyIdx) (s : State) :
    getReg z (resolveWait k s) = if z = s.waitreg then BitVec.ofNat 8 k.val else getReg z s := by
  rw [show getReg z (resolveWait k s) = getReg z (setReg s.waitreg (BitVec.ofNat 8 k.val) s) from rfl, getReg_setReg]

theorem flagByte_toNat (c : Bool) : (flagByte c).toNat = if c then 1 else 0 := by
  cases c <;> rfl

theorem regBlock_length (x : RegIdx) (s : State) : (regBlock x s).length = x.val + 1 := by
  simp [regBlock]

theorem regBlock_getElem (x : RegIdx) (s : State) (k : Nat) (h : k < (regBlock x s).length) :
    (regBlock x s)[k] = getReg ⟨k, by have := regBlock_length x s; omega⟩ s := by
  simp [regBlock, getReg]

end Sys2Proof.Machine
end

