-- ==== Sys2Proof/Laws/Step.lean ====
section
/-! SUPPORT. What the stack operations, an instruction and a step can answer, each said once. -/

namespace Sys2Proof.Machine

theorem pushReturn_some {w : Word} {s t : State} (h : pushReturn w s = some t) :
    ∃ hs : s.sp.val < 16, t = { s with stack := s.stack.set s.sp.val w, sp := ⟨s.sp.val + 1, by omega⟩ } := by
  unfold pushReturn at h
  split at h
  · exact ⟨‹_›, by simpa using h.symm⟩
  · cases h

theorem pushReturn_none {w : Word} {s : State} : pushReturn w s = none ↔ s.sp.val = 16 := by
  unfold pushReturn
  split <;> simp <;> omega

theorem popReturn_some {w : Word} {s t : State} (h : popReturn s = some (w, t)) :
    ∃ hs : 0 < s.sp.val, w = s.stack[s.sp.val - 1] ∧ t = { s with sp := ⟨s.sp.val - 1, by omega⟩ } := by
  unfold popReturn at h
  split at h
  · simp only [Option.some.injEq, Prod.mk.injEq] at h
    exact ⟨‹_›, h.1.symm, h.2.symm⟩
  · cases h

theorem popReturn_none {s : State} : popReturn s = none ↔ s.sp.val = 0 := by
  unfold popReturn
  split <;> simp <;> omega

/-- The only fatal errors of an instruction: RET on the empty stack, CALL on the full one, the copy when disabled. -/
theorem exec_fault {i : Instr} {s : State} {f : Fault} (h : exec i s = .fault f) :
    (i = .ret ∧ s.sp.val = 0 ∧ f = .stackUnderflow) ∨
    (∃ nnn, i = .call nnn ∧ s.sp.val = 16 ∧ f = .stackOverflow) ∨
    (∃ x y, i = .ldVxVy x y ∧ s.config.enableCopy8xy0 = false ∧ f = .unhandledInstruction (encode i)) := by
  cases i
  case ret =>
    simp only [exec, execRet] at h
    split at h
    · cases h
    · rename_i hn
      exact .inl ⟨rfl, popReturn_none.1 hn, by simpa [raise] using h.symm⟩
  case call nnn =>
    simp only [exec, execCall] at h
    split at h
    · cases h
    · rename_i hn
      exact .inr (.inl ⟨nnn, rfl, pushReturn_none.1 hn, by simpa [raise] using h.symm⟩)
  case ldVxVy x y =>
    simp only [exec, execLdVxVy] at h
    split at h
    · cases h
    · rename_i hn
      exact .inr (.inr ⟨x, y, rfl, by simpa [Instr.wellFormed] using hn, by simpa [raise] using h.symm⟩)
  all_goals cases h

/-- No instruction refuses. -/
theorem exec_not_refused (i : Instr) (s : State) (r : Refusal) : exec i s ≠ .refused r := by
  cases i
  case ret => simp only [exec, execRet]; split <;> simp [raise]
  case call nnn => simp only [exec, execCall]; split <;> simp [raise]
  case ldVxVy x y => simp only [exec, execLdVxVy]; split <;> simp [raise]
  all_goals exact fun h => nomatch h

/-- What a step answers: suspended, an illegal word, or what the fetched instruction answers. -/
theorem step_cases (s : State) :
    (s.waiting = true ∧ step s = .next s) ∨
    (s.waiting = false ∧ (∃ e, decode (fetchWord s) = .error e) ∧
      step s = .fault (.unhandledInstruction (fetchWord s))) ∨
    (s.waiting = false ∧ ∃ i, decode (fetchWord s) = .ok i ∧ step s = exec i s) := by
  unfold step suspended fetchInstr
  cases hw : s.waiting
  · right
    cases hd : decode (fetchWord s) with
    | ok i => exact .inr ⟨rfl, i, rfl, rfl⟩
    | error e => exact .inl ⟨rfl, ⟨e, rfl⟩, rfl⟩
  · exact .inl ⟨rfl, rfl⟩

/-- A step that goes on: suspended, or the fetched instruction's next state. -/
theorem step_next {s t : State} (h : step s = .next t) :
    (s.waiting = true ∧ t = s) ∨
    (s.waiting = false ∧ ∃ i, decode (fetchWord s) = .ok i ∧ exec i s = .next t) := by
  rcases step_cases s with ⟨hw, hs⟩ | ⟨_, _, hs⟩ | ⟨hw, i, hd, hs⟩
  · exact .inl ⟨hw, by rw [hs] at h; cases h; rfl⟩
  · rw [hs] at h; cases h
  · exact .inr ⟨hw, i, hd, hs ▸ h⟩

theorem fetchWord_toNat (s : State) : (fetchWord s).toNat = fetchedNumber s := wordOfBytes_toNat _ _

end Sys2Proof.Machine
end

