-- ==== Sys2Proof/Tests/Slice0.lean ====
section
/-! SUPPORT. The model's own tests: decoding, well-formedness, one or two steps per instruction, the host operations,
and a witness for the hypotheses of each statement. Expected results are those of spec/95_test_vectors.md, whose table
and row each comment names, or hand calculation from the rule named. -/

namespace Sys2Proof.Tests

open Sys2Proof.Machine

/-- The outcome is a next state of which `p` holds. -/
def nextWith (o : Host.Outcome State Fault Refusal) (p : State → Bool) : Bool :=
  match o with
  | .next t => p t
  | .fault _ => false
  | .refused _ => false

/-- The outcome is the fault `f`. -/
def faultsWith (o : Host.Outcome State Fault Refusal) (f : Fault) : Bool :=
  match o with
  | .next _ => false
  | .fault g => g == f
  | .refused _ => false

/-- One step of `s` with the word `w` at its `pc`. -/
def stepWord (w : Nat) (s : State) : Host.Outcome State Fault Refusal := step (s.withFetchWord 16 w)

/-- The state after reset, and with registers 0 and 1 set. -/
abbrev s0 : State := State.reset
abbrev v01 (a b : Byte) : State := setReg 1 b (setReg 0 a s0)

/-- The parameters with one changed. -/
abbrev copyOn : Config := { defaultConfig with enableCopy8xy0 := true }
abbrev looseShl : Config := { defaultConfig with strictShiftSemantics := false }
abbrev shiftX : Config := { defaultConfig with shiftSource := .x }

/-! ### Decoding: a word of every constructor, written from 30_encoding.md R94 to R99 -/

theorem test_decode_control_flow :
    decode 0b0000000011101110#16 = .ok .ret ∧ decode 0b0001101010111100#16 = .ok (.jp 0xABC) ∧
    decode 0b0010001100000000#16 = .ok (.call 0x300) ∧ decode 0b0011001100101010#16 = .ok (.seVxKk 3 0x2A) ∧
    decode 0b0100001100101010#16 = .ok (.sneVxKk 3 0x2A) ∧ decode 0b0101000100100000#16 = .ok (.seVxVy 1 2) ∧
    decode 0b1001000100100000#16 = .ok (.sneVxVy 1 2) ∧ decode 0b1011111111111111#16 = .ok (.jpV0Nnn 0xFFF) := by decide

theorem test_decode_alu :
    decode 0b0110000010101011#16 = .ok (.ldVxKk 0 0xAB) ∧ decode 0b0111111100000001#16 = .ok (.addVxKk 15 1) ∧
    decode 0b1000101101010000#16 = .ok (.ldVxVy 11 5) ∧ decode 0b1000000000010001#16 = .ok (.orVxVy 0 1) ∧
    decode 0b1000000000010010#16 = .ok (.andVxVy 0 1) ∧ decode 0b1000000000010011#16 = .ok (.xorVxVy 0 1) ∧
    decode 0b1000000000010100#16 = .ok (.addVxVy 0 1) ∧ decode 0b1000000000010101#16 = .ok (.subVxVy 0 1) ∧
    decode 0b1000000000010110#16 = .ok (.shrVxVy 0 1) ∧ decode 0b1000000000010111#16 = .ok (.subnVxVy 0 1) ∧
    decode 0b1000000000011110#16 = .ok (.shlVxVy 0 1) ∧ decode 0b1100001100001111#16 = .ok (.rndVxKk 3 0x0F) := by decide

theorem test_decode_address_memory :
    decode 0b1010000100100011#16 = .ok (.ldINnn 0x123) ∧ decode 0b1111001000011110#16 = .ok (.addIVx 2) ∧
    decode 0b1111000000101001#16 = .ok (.ldFVx 0) ∧ decode 0b1111000000110011#16 = .ok (.ldBVx 0) ∧
    decode 0b1111001001010101#16 = .ok (.ldMemIVx 2) ∧ decode 0b1111001001100101#16 = .ok (.ldVxMemI 2) := by decide

theorem test_decode_display_keypad_timers :
    decode 0b0000000011100000#16 = .ok .cls ∧ decode 0b1101000100100101#16 = .ok (.drwVxVyN 1 2 5) ∧
    decode 0b1110001010011110#16 = .ok (.skpVx 2) ∧ decode 0b1110001010100001#16 = .ok (.sknpVx 2) ∧
    decode 0b1111010000000111#16 = .ok (.ldVxDt 4) ∧ decode 0b1111001100001010#16 = .ok (.ldVxK 3) ∧
    decode 0b1111010000010101#16 = .ok (.ldDtVx 4) ∧ decode 0b1111010000011000#16 = .ok (.ldStVx 4) := by decide

/-- T-DEC: each word is refused under the name of its group. -/
theorem test_decode_rejects :
    [0x0000#16, 0x00E1#16, 0x01E0#16, 0x0123#16].map decode = List.replicate 4 (.error .group0) ∧
    decode 0x5121#16 = .error .group5 ∧ [0x8128#16, 0x812F#16].map decode = List.replicate 2 (.error .group8) ∧
    decode 0x9121#16 = .error .group9 ∧ [0xE19F#16, 0xE100#16].map decode = List.replicate 2 (.error .groupE) ∧
    [0xF100#16, 0xF1FF#16, 0xF156#16].map decode = List.replicate 3 (.error .groupF) := by decide

theorem test_decode_bytes :
    decodeBytes [0x60, 0x05, 0x61] = .ok (.ldVxKk 0 5, [0x61]) ∧ decodeBytes [0x60] = .error .tooShort ∧
    decodeBytes [] = .error .tooShort ∧ decodeTableWord 16 0x8014 = some (.addVxVy 0 1) ∧
    decodeTableWord 16 0x5001 = none := by decide

/-! ### Well-formedness: the one ill-formed term is the copy where it is disabled (R100 (c)) -/

theorem test_wellFormed_copy_disabled : (Instr.ldVxVy 1 2).wellFormed defaultConfig = false := by decide
theorem test_wellFormed_copy_enabled : (Instr.ldVxVy 1 2).wellFormed copyOn = true := by decide

/-! ### The step cycle -/

/-- T-STEP 2: fetch at FFFE reads 0xFFE and 0xFFF, `pc` wraps at 65536. -/
theorem test_step_pc_wraps :
    nextWith (stepWord 0x6007 (setPc 0xFFFE s0)) (fun t => getReg 0 t == 7 && t.pc == 0) = true := by decide

/-- T-STEP 3: a word at 0x0FFF takes its second byte from address 0. -/
theorem test_step_fetch_wraps :
    nextWith (step (writeByte 0xFFF 0x61 (writeByte 0 0x22 (setPc 0x0FFF s0))))
      (fun t => getReg 1 t == 0x22 && t.pc == 0x1001) = true := by decide

/-- T-STEP 5, T-ERR 7: a suspended step changes nothing, even at an illegal word. -/
theorem test_step_suspended : nextWith (step (beginWait 3 s0)) (fun t => t == beginWait 3 s0) = true := by decide

/-- T-STEP 6, R303: the first step after a bare reset. -/
theorem test_step_after_reset : faultsWith (step s0) (.unhandledInstruction 0x0000) = true := by decide

/-! ### Control flow (T-CF; S-UNDER; T-ERR) -/

theorem test_ret : nextWith (stepWord 0x00EE { s0 with sp := 1, stack := s0.stack.set 0 0x204 })
    (fun t => t.sp == 0 && t.pc == 0x206) = true := by decide
theorem test_ret_underflow : faultsWith (stepWord 0x00EE s0) .stackUnderflow = true := by decide
theorem test_jp : nextWith (stepWord 0x1ABC s0) (fun t => t.pc == 0xABC) = true := by decide
theorem test_call : nextWith (stepWord 0x2300 s0)
    (fun t => t.stack[0] == 0x200 && t.sp == 1 && t.pc == 0x300) = true := by decide
theorem test_call_overflow : faultsWith (stepWord 0x2222 { s0 with sp := 16 }) .stackOverflow = true := by decide
theorem test_se_kk_taken : nextWith (stepWord 0x332A (setReg 3 0x2A s0)) (fun t => t.pc == 0x204) = true := by decide
theorem test_se_kk_not_taken : nextWith (stepWord 0x332A (setReg 3 0x2B s0)) (fun t => t.pc == 0x202) = true := by decide
theorem test_sne_kk_not_taken : nextWith (stepWord 0x432A (setReg 3 0x2A s0)) (fun t => t.pc == 0x202) = true := by decide
theorem test_sne_kk_taken : nextWith (stepWord 0x432A (setReg 3 0x2B s0)) (fun t => t.pc == 0x204) = true := by decide
theorem test_se_reg_taken : nextWith (stepWord 0x5010 (v01 9 9)) (fun t => t.pc == 0x204) = true := by decide
theorem test_se_reg_not_taken : nextWith (stepWord 0x5010 (v01 9 0xA)) (fun t => t.pc == 0x202) = true := by decide
theorem test_sne_reg_taken : nextWith (stepWord 0x9010 (v01 9 0xA)) (fun t => t.pc == 0x204) = true := by decide
theorem test_sne_reg_not_taken : nextWith (stepWord 0x9010 (v01 9 9)) (fun t => t.pc == 0x202) = true := by decide
/-- T-CF 16: no 12-bit mask. -/
theorem test_jp_v0 : nextWith (stepWord 0xBFFF (setReg 0 0xFF s0)) (fun t => t.pc == 0x10FE) = true := by decide

/-! ### Arithmetic and logic (T-ALU, T-ALIAS) -/

theorem test_ld_kk : nextWith (stepWord 0x60AB s0) (fun t => getReg 0 t == 0xAB && t.pc == 0x202) = true := by decide
theorem test_add_kk_no_flag : nextWith (stepWord 0x7001 (setReg 0 0xFF s0))
    (fun t => getReg 0 t == 0 && getReg 15 t == 0) = true := by decide
theorem test_copy_disabled : faultsWith (stepWord 0x8120 s0) (.unhandledInstruction 0x8120) = true := by decide
theorem test_copy_enabled : nextWith (stepWord 0x8010 { setReg 1 7 s0 with config := copyOn })
    (fun t => getReg 0 t == 7 && getReg 1 t == 7 && t.pc == 0x202) = true := by decide
theorem test_or : nextWith (stepWord 0x8011 (setReg 15 1 (v01 0xF0 0x0F)))
    (fun t => getReg 0 t == 0xFF && getReg 15 t == 1) = true := by decide
theorem test_and : nextWith (stepWord 0x8012 (v01 0xF0 0x3C)) (fun t => getReg 0 t == 0x30) = true := by decide
theorem test_xor : nextWith (stepWord 0x8013 (v01 0xFF 0x0F)) (fun t => getReg 0 t == 0xF0) = true := by decide
theorem test_add_carry : nextWith (stepWord 0x8014 (v01 0xFF 1))
    (fun t => getReg 0 t == 0 && getReg 15 t == 1) = true := by decide
/-- T-ALIAS 5: the result overwrites the carry. -/
theorem test_add_into_vf : nextWith (stepWord 0x8F14 (setReg 15 0xF0 (setReg 1 0x20 s0)))
    (fun t => getReg 15 t == 0x10) = true := by decide
theorem test_sub_equal : nextWith (stepWord 0x8015 (setReg 15 1 (v01 7 7)))
    (fun t => getReg 0 t == 0 && getReg 15 t == 0) = true := by decide
theorem test_sub_borrow : nextWith (stepWord 0x8015 (v01 3 5))
    (fun t => getReg 0 t == 0xFE && getReg 15 t == 0) = true := by decide
theorem test_shr_y : nextWith (stepWord 0x8016 (v01 0xFF 3))
    (fun t => getReg 0 t == 1 && getReg 15 t == 1 && getReg 1 t == 3) = true := by decide
theorem test_shr_x : nextWith (stepWord 0x8016 { v01 3 0x80 with config := shiftX })
    (fun t => getReg 0 t == 1 && getReg 15 t == 1) = true := by decide
theorem test_subn : nextWith (stepWord 0x8017 (v01 3 5))
    (fun t => getReg 0 t == 2 && getReg 15 t == 1) = true := by decide
theorem test_subn_borrow : nextWith (stepWord 0x8017 (v01 5 3))
    (fun t => getReg 0 t == 0xFE && getReg 15 t == 0) = true := by decide
theorem test_shl_strict : nextWith (stepWord 0x801E (v01 0 0x81))
    (fun t => getReg 0 t == 2 && getReg 15 t == 1) = true := by decide
theorem test_shl_loose : nextWith (stepWord 0x801E { v01 0xFF 0x80 with config := looseShl })
    (fun t => getReg 0 t == 0 && getReg 15 t == 0) = true := by decide
/-- T-ALU immediate 5: with mask 0 the result is 0 for every draw. -/
theorem test_rnd_mask_zero (s : State) : ∃ t, exec (.rndVxKk 3 0) s = .next t ∧ getReg 3 t = 0 :=
  ⟨_, rfl, by simp⟩

/-! ### Address register and memory (T-MEM) -/

theorem test_ld_i : nextWith (stepWord 0xA123 s0) (fun t => t.i == 0x123) = true := by decide
theorem test_add_i_wraps : nextWith (stepWord 0xF01E (setI 0xFFFF (setReg 0 1 s0)))
    (fun t => t.i == 0 && getReg 15 t == 0) = true := by decide
theorem test_add_i_unmasked : nextWith (stepWord 0xF01E (setI 0x0FFE (setReg 0 5 s0))) (fun t => t.i == 0x1003) = true := by
  decide
theorem test_ld_f : nextWith (stepWord 0xF029 (setReg 0 0xFF s0)) (fun t => t.i == 0x04FB) = true := by decide
theorem test_ld_b : nextWith (stepWord 0xF033 (setI 0x300 (setReg 0 0xEA s0)))
    (fun t => [readByte 0x300 t, readByte 0x301 t, readByte 0x302 t] == [2, 3, 4] && t.i == 0x300) = true := by decide
theorem test_ld_b_wraps : nextWith (stepWord 0xF033 (setI 0x1FFE (setReg 0 0x7B s0)))
    (fun t => [readByte 0xFFE t, readByte 0xFFF t, readByte 0 t] == [1, 2, 3]) = true := by decide
theorem test_block_store : nextWith (stepWord 0xF155 (setI 0x400 (v01 0xAA 0xBB)))
    (fun t => [readByte 0x400 t, readByte 0x401 t, readByte 0x402 t] == [0xAA, 0xBB, 0] && t.i == 0x400) = true := by
  decide
theorem test_block_store_wraps : nextWith (stepWord 0xF155 (setI 0x0FFF (v01 0xAA 0xBB)))
    (fun t => [readByte 0xFFF t, readByte 0 t, readByte 1 t] == [0xAA, 0xBB, 0x90]) = true := by decide
/-- T-MEM 18: glyph 0 of the default table. -/
theorem test_block_load_glyph : nextWith (stepWord 0xF465 s0)
    (fun t => (t.v.toList.take 6) == [0xF0, 0x90, 0x90, 0x90, 0xF0, 0]) = true := by decide
theorem test_block_load_inclusive : nextWith (stepWord 0xF065 (setReg 1 7 s0))
    (fun t => getReg 0 t == 0xF0 && getReg 1 t == 7) = true := by decide

/-! ### Display (T-DISP) -/

theorem test_cls : nextWith (stepWord 0x00E0 (setReg 15 1 (setDisp (s0.disp.toggle 5) s0)))
    (fun t => !t.disp.lit 5 && getReg 15 t == 1 && t.pc == 0x202) = true := by decide
/-- T-DISP 4 (P4): the second row of the sprite spills from column 64 on into the next row. -/
theorem test_drw_spill :
    nextWith (stepWord 0xD012 (setI 0x300 (writeBytes 0x300 [0xC0, 0xFF] (v01 62 1))))
      (fun t => [126, 127, 190, 191, 192, 193, 194, 195, 196, 197].all t.disp.lit &&
        [125, 128, 189, 198, 62, 254].all (fun j => !t.disp.lit j) && getReg 15 t == 0) = true := by decide
/-- T-DISP 2b with 3: a collision, and a row past the buffer dropped. -/
theorem test_drw_collision_and_clip :
    nextWith (stepWord 0xD012 (setI 0x300 (writeBytes 0x300 [0xC0, 0xFF] (setDisp (s0.disp.toggle 4033) (v01 0 63)))))
      (fun t => t.disp.lit 4032 && !t.disp.lit 4033 && !t.disp.lit 0 && getReg 15 t == 1) = true := by decide

/-! ### Keypad and timers (T-KEY) -/

theorem test_skp_low_bits : nextWith (stepWord 0xE29E (latchKey 0xA true (setReg 2 0x1A s0)))
    (fun t => t.pc == 0x204) = true := by decide
theorem test_skp_released : nextWith (stepWord 0xE29E (setReg 2 5 s0)) (fun t => t.pc == 0x202) = true := by decide
theorem test_sknp_released : nextWith (stepWord 0xE2A1 (setReg 2 5 s0)) (fun t => t.pc == 0x204) = true := by decide
theorem test_sknp_pressed : nextWith (stepWord 0xE2A1 (latchKey 5 true (setReg 2 5 s0))) (fun t => t.pc == 0x202) = true := by
  decide
theorem test_ld_vx_dt : nextWith (stepWord 0xF407 (setDt 0x3C s0)) (fun t => getReg 4 t == 0x3C) = true := by decide
theorem test_ld_vx_k : nextWith (stepWord 0xF30A s0)
    (fun t => t.waiting && t.waitreg == 3 && t.pc == 0x202 && getReg 3 t == 0) = true := by decide
theorem test_ld_dt_vx : nextWith (stepWord 0xF415 (setReg 4 0x3C s0)) (fun t => t.dt == 0x3C && t.st == 0) = true := by decide
theorem test_ld_st_vx : nextWith (stepWord 0xF418 (setReg 4 2 s0)) (fun t => t.st == 2 && t.dt == 0) = true := by decide

/-! ### Host operations (T-KEY, S-WAIT, T-RESET, T-ERR) -/

theorem test_tick : (tick (setDt 0xFF (setSt 1 s0)) = setDt 0xFE (setSt 0 s0)) ∧ tick s0 = s0 := by decide
/-- S-WAIT: a key held since before does not resolve the wait, a fresh one does. -/
theorem test_wait_held_then_fresh :
    nextWith (session [.setKey 4 true, .step, .step, .setKey 4 true] (s0.withFetchWord 16 0xF30A))
      (fun t => t.waiting && t.pc == 0x202) = true ∧
    nextWith (session [.step, .tick, .setKey 9 true] (s0.withFetchWord 16 0xF30A))
      (fun t => !t.waiting && getReg 3 t == 9 && t.waitreg == 3 && keyState 9 t) = true := by decide
/-- T-RESET 2: low memory kept, glyphs re-seeded, the program region zeroed. -/
theorem test_reset_regions :
    nextWith (perform .reset (writeByte 0x100 0x77 (writeByte 0x010 0 (writeByte 0x300 0x55 (setPc 0x456 s0)))))
      (fun t => [readByte 0x100 t, readByte 0x010 t, readByte 0x300 t] == [0x77, 0x10, 0] && t.pc == 0x200) = true := by
  decide
/-- E2. -/
theorem test_load : nextWith (perform (.load [0xAA, 0xBB]) (setReg 5 9 s0))
    (fun t => [readByte 0x200 t, readByte 0x201 t, readByte 0x202 t] == [0xAA, 0xBB, 0] && getReg 5 t == 0) = true := by
  decide
/-- T-ERR 4. -/
theorem test_load_overflow (s : State) (image : List Byte) (h : image.length = 3585) :
    perform (.load image) s = .fault .loadOverflow := by
  simp [perform, load, maxImage, raise, h]
/-- E7, P1: the source's sample, three steps. -/
theorem test_source_sample :
    nextWith (session [.load [0x60, 0x05, 0x61, 0x03, 0x80, 0x14, 0x00, 0x00], .step, .step, .step] s0)
      (fun t => getReg 0 t == 8 && getReg 15 t == 0 && t.pc == 0x206) = true := by decide

/-! ### Witnesses: a state and operands that meet the hypotheses of each statement that has some -/

/-- EncodeOfDecodeIsIdentity. -/
theorem witness_encode_of_decode : decode 0xD125#16 = .ok (.drwVxVyN 1 2 5) := by decide

/-- SuspendedStepIsANoOp. -/
theorem witness_suspended : (beginWait 3 s0).waiting = true := by decide

/-- A state whose next instruction is the given word. -/
abbrev at16 (w : Nat) : State := s0.withFetchWord 16 w

/-- StepRunsTheDecodedInstruction. -/
theorem witness_step_runs :
    (at16 0x8014).waiting = false ∧
    decode (wordOfBytes (readByte (at16 0x8014).pc.toNat (at16 0x8014))
      (readByte ((at16 0x8014).pc.toNat + 1) (at16 0x8014))) = .ok (.addVxVy 0 1) ∧
    (Instr.addVxVy 0 1).wellFormed (at16 0x8014).config = true := by decide

/-- UnhandledInstructionExactlyOnIllegalWords: its right side, at the copy disabled and at the least illegal word. -/
theorem witness_illegal_words :
    IllegalWord defaultConfig 0x8120 ∧ ¬ IllegalWord copyOn 0x8120 ∧ IllegalWord copyOn 0x0000 ∧
    ¬ IllegalWord defaultConfig 0x00E0 ∧ ¬ IllegalWord defaultConfig 0x1000 ∧ IllegalWord defaultConfig 0x0FFF ∧
    IllegalWord defaultConfig 0xFFFF := by
  simp [IllegalWord, defaultConfig]

/-- StackUnderflowExactlyOnRetWithEmptyStack, StackOverflowExactlyOnCallWithFullStack. -/
theorem witness_stack_faults :
    (fetchedNumber (at16 0x00EE) = 0xEE ∧ (at16 0x00EE).sp.val = 0) ∧
    fetchedNumber { at16 0x2FFF with sp := 16 } / 0x1000 = 2 := by decide

/-- PlacedWordIsFetchedNext, at both ends of its range, with `pc` where the two addresses wrap. -/
theorem witness_placed_word :
    fetchedNumber ((setPc 0x0FFF s0).withFetchWord 16 0) = 0 ∧
    fetchedNumber ((setPc 0xFFFF s0).withFetchWord 16 65535) = 65535 := by decide

/-- StepKeepsCanonicalMemory, OnlyBcdAndBlockStoreChangeMemory: a step that lists three new bytes. -/
theorem witness_step_writes :
    Memory.wf (setReg 0 0xEA (setI 0x300 (at16 0xF033))).config.glyphTable
      (setReg 0 0xEA (setI 0x300 (at16 0xF033))).mem = true ∧
    nextWith (step (setReg 0 0xEA (setI 0x300 (at16 0xF033)))) (fun t => readByte 0x300 t != 0) = true := by decide

/-- SessionsKeepCanonicalMemoryAndParameters. -/
theorem witness_session :
    Memory.wf s0.config.glyphTable s0.mem = true ∧
    nextWith (session [.load [0x60, 0x05], .step, .tick, .setKey 1 true, .reset] s0) (fun t => t.pc == 0x200) = true := by
  decide

/-- OnlyClearAndDrawChangeTheDisplay: a draw and a clear that change a cell. -/
theorem witness_display_changes :
    nextWith (step (at16 0xD001)) (fun t => t.disp.lit 0 != s0.disp.lit 0) = true ∧
    nextWith (step (setDisp (s0.disp.toggle 4095) (at16 0x00E0))) (fun t => !t.disp.lit 4095) = true := by decide

/-- OnlyCallAndRetChangeTheStack: CALL to the full stack, RET to the empty one, neither. -/
theorem witness_stack_changes :
    nextWith (step { at16 0x2300 with sp := 15 }) (fun t => t.sp == 16) = true ∧
    nextWith (step { at16 0x00EE with sp := 1 }) (fun t => t.sp == 0) = true ∧
    nextWith (step { at16 0x1300 with sp := 16 }) (fun t => t.sp == 16) = true := by decide

/-- StepsLeaveTheKeyLatchButForWaits, OnlyTheirInstructionsWriteTimersAndAddress: each clause's change. -/
theorem witness_special_registers :
    nextWith (step (at16 0xFF0A)) (fun t => t.waiting && t.waitreg == 15) = true ∧
    nextWith (step (setReg 0 9 (at16 0xF015))) (fun t => t.dt != 0) = true ∧
    nextWith (step (setReg 0 9 (at16 0xF018))) (fun t => t.st != 0) = true ∧
    nextWith (step (at16 0xAFFF)) (fun t => t.i != 0) = true ∧
    nextWith (step (setReg 0 9 (at16 0xF01E))) (fun t => t.i != 0) = true ∧
    nextWith (step (setReg 0 9 (at16 0xF029))) (fun t => t.i != 0) = true := by decide

/-- SelfJumpLeavesTheState, not suspended and suspended (R307 asks for the two bytes at `pc` alone). -/
theorem witness_finished :
    Finished (at16 0x1200) ∧ Finished { at16 0x1200 with waiting := true } := by unfold Finished; decide

/-- CallPushesItsAddressAndJumps and RetResumesTwoPastThePoppedEntry, at both ends of the pointer's range. -/
theorem witness_stack_bounds :
    s0.sp.val < 16 ∧ ({ s0 with sp := 15 } : State).sp.val < 16 ∧ 0 < ({ s0 with sp := 1 } : State).sp.val ∧
    0 < ({ s0 with sp := 16 } : State).sp.val := by decide

/-- CallThenRetResumesAfterTheCall: the RET right after the CALL, at the deepest CALL. -/
theorem witness_call_then_ret :
    nextWith (exec (.call 0x300) { s0 with sp := 15 }) (fun t =>
      nextWith (exec .ret t) (fun r => r.pc == 0x202 && r.sp == 15)) = true := by decide

/-- RegisterCopyIsGated, both clauses. -/
theorem witness_copy_gate :
    ({ s0 with config := copyOn } : State).config.enableCopy8xy0 = true ∧ s0.config.enableCopy8xy0 = false := by decide

/-- The flag clauses of ADD, SUB, SUBN, SHR and SHL: a destination other than VF. -/
theorem witness_not_flag_register : (14 : RegIdx) ≠ 15 := by decide

/-- ShiftRightHalvesTheSource, ShiftLeftDoublesTheSource: both settings of `shiftSource`, and both of
`strictShiftSemantics`, which differ in the flag. -/
theorem witness_shift_settings :
    nextWith (exec (.shlVxVy 14 1) { setReg 1 0x80 s0 with config := looseShl }) (fun t => getReg 15 t == 0) = true ∧
    nextWith (exec (.shlVxVy 14 1) (setReg 1 0x80 s0)) (fun t => getReg 15 t == 1) = true ∧
    nextWith (exec (.shrVxVy 14 1) { setReg 14 1 s0 with config := shiftX }) (fun t => getReg 15 t == 1) = true ∧
    nextWith (exec (.shrVxVy 14 1) (setReg 14 1 s0)) (fun t => getReg 15 t == 0) = true := by decide

/-- StoreBcdWritesThreeDigits, BlockStoreWritesRegistersThroughX, BlockLoadReadsRegistersThroughX: the boundary values
of their bounded clauses, the store's last register and the first address outside. -/
theorem witness_blocks :
    (15 : RegIdx) ≤ 15 ∧ (0 : RegIdx) ≤ 0 ∧ ¬ (1 : RegIdx) ≤ 0 ∧
    (∀ k < 3, (3 : Nat) % 4096 ≠ effectiveAddr s0 k % 4096) ∧
    (∀ k ≤ (15 : RegIdx).val, (16 : Nat) % 4096 ≠ effectiveAddr s0 k % 4096) := by decide

/-- BlockLoadRestoresABlockStore: the load right after the store, across the top of memory. -/
theorem witness_store_then_load :
    nextWith (exec (.ldMemIVx 1) (setI 0x0FFF (v01 0xAA 0xBB))) (fun t =>
      t.i == 0x0FFF && nextWith (exec (.ldVxMemI 1) t) (fun r => getReg 1 r == 0xBB)) = true := by decide

/-- DrawInvertsTheCoveredCells: the first and last cell of the buffer, covered and not, lit and not. -/
theorem witness_draw_covers :
    SpriteCovers 0 1 1 (v01 0 0) 0 ∧ SpriteCovers 0 1 1 (v01 63 63) 4095 ∧ ¬ SpriteCovers 0 1 0 (v01 0 0) 0 ∧
    ((v01 63 63).disp.toggle 4095).lit 4095 = true ∧ (v01 0 0).disp.lit 0 = false := by
  refine ⟨⟨0, 0, by decide⟩, ⟨0, 0, by decide⟩, ?_, by decide, by decide⟩
  rintro ⟨r, c, h, _⟩
  exact absurd h (Nat.not_lt_zero r)

/-- DrawingTwiceRestoresTheDisplay: two draws in a row, the second with a collision. -/
theorem witness_draw_twice :
    (0 : RegIdx) ≠ 15 ∧ (1 : RegIdx) ≠ 15 ∧
    nextWith (exec (.drwVxVyN 0 1 1) (v01 0 0)) (fun t =>
      t.disp.lit 0 && nextWith (exec (.drwVxVyN 0 1 1) t) (fun u => !u.disp.lit 0 && getReg 15 u == 1)) = true := by decide

/-- KeyEventLatchesAndResolvesWaits: a duplicate, a fresh press while waiting, a release. -/
theorem witness_key_events :
    (latchKey 15 true s0).key[(15 : KeyIdx)] = true ∧
    (setKey 15 true (beginWait 2 s0)).waiting = false ∧ (setKey 0 false (beginWait 2 (latchKey 0 true s0))).waiting = true := by
  decide

/-- OnlyAFreshPressResolvesAWait: a session of each allowed operation, then a released key. -/
theorem witness_wait_session :
    nextWith (exec (.ldVxK 15) (latchKey 4 true s0)) (fun t =>
      nextWith (session [.step, .tick, .setKey 4 false] t) (fun u => u.waiting && !keyState 4 u)) = true := by decide

/-- ResetIsIdempotentAndKeepsLowMemory: the bytes on both sides of each boundary of its ranges, by hand from R300 (the
last byte of R31's table is 0x80), and the same after a second reset. -/
theorem witness_reset_boundaries :
    nextWith (session [.reset, .reset] (writeByte 0xFFF 0x44 (writeByte 0x200 0x33 (writeByte 0x1FF 0x22
      (writeByte 0x050 0x11 (writeByte 0x04F 0x55 s0)))))) (fun t =>
      readByte 0x04F t == 0x80 && readByte 0x050 t == 0x11 && readByte 0x1FF t == 0x22 && readByte 0x200 t == 0 &&
      readByte 0xFFF t == 0 && nextWith (perform .reset t) (fun u => u == t)) = true := by decide

/-- MemWriteSetsOneByteModulo4096: an address past the top, its two neighbours and the lowest address, by hand from
R61. -/
theorem witness_mem_write :
    0xFFF < 4096 ∧ 0x1FFF % 4096 = 0xFFF ∧ readByte 0xFFF (writeByte 0x1FFF 0x77 s0) = 0x77 ∧
    readByte 0xFFE (writeByte 0x1FFF 0x77 s0) = 0 ∧ readByte 0 (writeByte 0x1FFF 0x77 s0) = 0xF0 := by decide

/-- LoadPlacesTheImage: the empty and the longest image. -/
theorem witness_image_lengths :
    ([] : List Byte).length ≤ 3584 ∧ (List.replicate 3584 (0 : Byte)).length ≤ 3584 :=
  ⟨Nat.zero_le _, by rw [List.length_replicate]⟩

/-- LoadOverflowExactlyOnLongImages: the shortest image that is too long. -/
theorem witness_long_image : (List.replicate 3585 (0 : Byte)).length > 3584 := by
  rw [List.length_replicate]; decide

end Sys2Proof.Tests
end

section
/-! The proofs about memory accesses (spec/20_memory.md). -/

namespace Sys2Proof.Proofs

open Sys2Proof.Machine

/-- An address below 4096 is its own place in memory (R60). -/
theorem memIndex_of_lt {a : Nat} (h : a < 4096) : memIndex a = a := Nat.mod_eq_of_lt h

/-- Reducing an address before the access changes nothing (R60, R62). -/
theorem memIndex_mod_4096 (a : Nat) : memIndex (a % 4096) = memIndex a := Nat.mod_mod a 4096

/-- Settles O60: a read after a write compares the two reduced addresses, and an address below 4096 is its own
reduction. -/
theorem memWriteSetsOneByteModulo4096 : Obligations.MemWriteSetsOneByteModulo4096 := by
  intro a b s
  constructor
  · rw [readByte_writeByte, if_pos (memIndex_mod_4096 a)]
  · intro c hc hne
    have hother : memIndex c ≠ memIndex a := by
      rw [memIndex_of_lt hc]
      exact hne
    rw [readByte_writeByte, if_neg hother]

end Sys2Proof.Proofs
end

section
/-! The proofs about the step cycle (spec/40_step_cycle.md). -/

namespace Sys2Proof.Proofs

open Sys2Proof.Machine

/-- The suspension check comes before the fetch (R121). -/
theorem step_of_waiting {s : State} (hw : s.waiting = true) : step s = .next s := by
  rcases step_cases s with ⟨_, hs⟩ | ⟨hrun, _⟩ | ⟨hrun, _⟩
  · exact hs
  · cases hw.symm.trans hrun
  · cases hw.symm.trans hrun

/-- Past the suspension check, a fetched word that decodes is executed at the state itself (R122 to R124). -/
theorem step_of_decode {s : State} {i : Instr} (hw : s.waiting = false) (hd : decode (fetchWord s) = .ok i) :
    step s = exec i s := by
  rcases step_cases s with ⟨hwait, _⟩ | ⟨_, ⟨_, herr⟩, _⟩ | ⟨_, j, hj, hs⟩
  · cases hw.symm.trans hwait
  · cases herr.symm.trans hd
  · have hji : j = i := Except.ok.inj (hj.symm.trans hd)
    rw [hs, hji]

/-- Settles O6: the suspended case of `step`. -/
theorem suspendedStepIsANoOp : Obligations.SuspendedStepIsANoOp :=
  fun _ => step_of_waiting

/-- Settles O7: the two bytes at `pc` are the fetched word. Whether the instruction's word is legal at the parameters
makes no difference here, because `exec` itself checks the gate of `8xy0` (log entry 5). -/
theorem stepRunsTheDecodedInstruction : Obligations.StepRunsTheDecodedInstruction := by
  intro s i hw hbytes _
  have hd : decode (fetchWord s) = .ok i := hbytes
  exact step_of_decode hw hd

end Sys2Proof.Proofs
end

section
/-! The proofs about control transfer (spec/41_control_flow.md). -/

namespace Sys2Proof.Proofs

open Sys2Proof.Machine

/-! ### Writes of the program counter -/

/-- A write of `pc` is seen by no read of another part of the state. -/
theorem onlyPc_setPc (w : Word) (s : State) : OnlyPc s (setPc w s) :=
  ⟨fun z => getReg_setPc z w s, rfl, ⟨rfl, rfl⟩, ⟨rfl, rfl⟩, ⟨rfl, rfl, rfl⟩, fun a => readByte_setPc a w s,
    fun _ => rfl, ⟨rfl, rfl⟩⟩

theorem onlyPc_skipIf (c : Bool) (s : State) : OnlyPc s (skipIf c s) := onlyPc_setPc _ s

theorem addrOperand_toNat (nnn : Addr12) : (addrOperand nnn).toNat = nnn.toNat :=
  BitVec.toNat_setWidth_of_le (by decide)

/-- The two distances of a skip, in the 16 bits of `pc` (R125; D11). -/
theorem pcAdvanced_skipIf (c : Bool) (s : State) : PcAdvanced (if c then 4 else 2) s (skipIf c s) := by
  cases c with
  | true => exact BitVec.toNat_add s.pc 4
  | false => exact BitVec.toNat_add s.pc 2

/-- A skip on the match of two bytes. -/
theorem pcAdvanced_skipIf_beq (a b : Byte) (s : State) :
    PcAdvanced (if a.toNat = b.toNat then 4 else 2) s (skipIf (a == b) s) := by
  have h := pcAdvanced_skipIf (a == b) s
  simpa only [beq_iff_eq, BitVec.toNat_inj] using h

/-- A skip on the mismatch of two bytes: the two distances change places. -/
theorem pcAdvanced_skipIf_bne (a b : Byte) (s : State) :
    PcAdvanced (if a.toNat = b.toNat then 2 else 4) s (skipIf (a != b) s) := by
  have h := pcAdvanced_skipIf (a != b) s
  simpa only [bne_iff_ne, ne_eq, ite_not, BitVec.toNat_inj] using h

/-! ### The meanings of the jump and of the skips -/

theorem exec_jp (nnn : Addr12) (s : State) : exec (.jp nnn) s = .next (setPc (addrOperand nnn) s) := rfl

theorem exec_seVxKk (x : RegIdx) (kk : Byte) (s : State) :
    exec (.seVxKk x kk) s = .next (skipIf (getReg x s == kk) s) := rfl

theorem exec_sneVxKk (x : RegIdx) (kk : Byte) (s : State) :
    exec (.sneVxKk x kk) s = .next (skipIf (getReg x s != kk) s) := rfl

theorem exec_seVxVy (x y : RegIdx) (s : State) :
    exec (.seVxVy x y) s = .next (skipIf (getReg x s == getReg y s) s) := rfl

theorem exec_sneVxVy (x y : RegIdx) (s : State) :
    exec (.sneVxVy x y) s = .next (skipIf (getReg x s != getReg y s) s) := rfl

/-! ### The obligations -/

/-- Settles O22: the jump is one write of `pc`, and zero extension keeps the address's value. -/
theorem jumpSetsPc : Obligations.JumpSetsPc :=
  fun nnn s => ⟨_, exec_jp nnn s, addrOperand_toNat nnn, onlyPc_setPc _ s⟩

/-- Settles O28: both instructions are a `skipIf`, on the match and on the mismatch of the register with the
immediate. -/
theorem skipOnImmediateComparison : Obligations.SkipOnImmediateComparison := by
  intro x kk s
  constructor
  · exact ⟨_, exec_seVxKk x kk s, onlyPc_skipIf _ s, pcAdvanced_skipIf_beq _ _ s⟩
  · exact ⟨_, exec_sneVxKk x kk s, onlyPc_skipIf _ s, pcAdvanced_skipIf_bne _ _ s⟩

/-- Settles O29: as for the immediates, with the second register in the immediate's place. -/
theorem skipOnRegisterComparison : Obligations.SkipOnRegisterComparison := by
  intro x y s
  constructor
  · exact ⟨_, exec_seVxVy x y s, onlyPc_skipIf _ s, pcAdvanced_skipIf_beq _ _ s⟩
  · exact ⟨_, exec_sneVxVy x y s, onlyPc_skipIf _ s, pcAdvanced_skipIf_bne _ _ s⟩

end Sys2Proof.Proofs
end

section
/-! The proofs about the register load and the arithmetic (spec/42_alu.md sections 1 to 3). -/

namespace Sys2Proof.Proofs

open Sys2Proof.Machine

/-! ### The `pc` of a straight-line instruction -/

/-- The distance to the next instruction, in the 16 bits of `pc` (R125; D11). -/
theorem pcAdvanced_nextPc (s : State) : PcAdvanced 2 s (nextPc s) := BitVec.toNat_add s.pc 2

/-! ### An instruction that writes one register -/

section
variable (x : RegIdx) (b : Byte) (s : State)

theorem sameRegsBut_nextPc_setReg : SameRegsBut (· = x) s (nextPc (setReg x b s)) :=
  fun _ hz => getReg_setReg_other b s hz

theorem pcAdvanced_nextPc_setReg : PcAdvanced 2 s (nextPc (setReg x b s)) := pcAdvanced_nextPc (setReg x b s)

theorem onlyRegsAndPc_nextPc_setReg : OnlyRegsAndPc s (nextPc (setReg x b s)) :=
  ⟨rfl, ⟨rfl, rfl⟩, ⟨rfl, rfl⟩, ⟨rfl, rfl, rfl⟩, fun _ => rfl, fun _ => rfl, ⟨rfl, rfl⟩⟩

end

/-! ### An instruction that writes a flag and a result -/

section
variable (x : RegIdx) (flag : Bool) (result : Byte) (s : State)

/-- The result is written last, so it is in the destination even where that is VF (R173; D9). -/
theorem getReg_setFlagAndReg_same : getReg x (setFlagAndReg x flag result s) = result :=
  getReg_setReg_same x result _

theorem getReg_flagReg_setFlagAndReg (hx : x ≠ flagReg) :
    getReg flagReg (setFlagAndReg x flag result s) = flagByte flag := by
  rw [getReg_setFlagAndReg, if_neg hx.symm, if_pos rfl]

theorem sameRegsBut_nextPc_setFlagAndReg :
    SameRegsBut (fun z => z = x ∨ z = 15) s (nextPc (setFlagAndReg x flag result s)) := by
  intro z hz
  obtain ⟨hzx, hzf⟩ := not_or.1 hz
  rw [getReg_nextPc, getReg_setFlagAndReg, if_neg hzx, if_neg hzf]

theorem pcAdvanced_nextPc_setFlagAndReg : PcAdvanced 2 s (nextPc (setFlagAndReg x flag result s)) :=
  pcAdvanced_nextPc (setFlagAndReg x flag result s)

theorem onlyRegsAndPc_nextPc_setFlagAndReg : OnlyRegsAndPc s (nextPc (setFlagAndReg x flag result s)) :=
  ⟨rfl, ⟨rfl, rfl⟩, ⟨rfl, rfl⟩, ⟨rfl, rfl, rfl⟩, fun _ => rfl, fun _ => rfl, ⟨rfl, rfl⟩⟩

end

/-! ### Flags and differences as numbers -/

theorem flagByte_addFlag_toNat (a b : Byte) :
    (flagByte (addFlag a b)).toNat = if a.toNat + b.toNat > 255 then 1 else 0 := by
  simp only [flagByte_toNat, addFlag, decide_eq_true_eq]

theorem flagByte_subFlag_toNat (a b : Byte) :
    (flagByte (subFlag a b)).toNat = if a.toNat > b.toNat then 1 else 0 := by
  simp only [flagByte_toNat, subFlag, decide_eq_true_eq]

/-- The difference of two bytes, borrowing 256 before the subtraction. -/
theorem byte_sub_toNat (a b : Byte) : (a - b).toNat = (256 + a.toNat - b.toNat) % 256 := by
  have hb := b.isLt
  rw [BitVec.toNat_sub]
  omega

/-- What SUB and SUBN share: the difference of two bytes, in either order, and its flag are written to `x` and VF. -/
theorem difference_and_flag_written (x : RegIdx) (a b : Byte) (s : State) :
    (getReg x (nextPc (setFlagAndReg x (subFlag a b) (a - b) s))).toNat = (256 + a.toNat - b.toNat) % 256 ∧
    (x ≠ 15 → (getReg 15 (nextPc (setFlagAndReg x (subFlag a b) (a - b) s))).toNat =
      if a.toNat > b.toNat then 1 else 0) := by
  simp only [getReg_nextPc]
  constructor
  · rw [getReg_setFlagAndReg_same, byte_sub_toNat]
  · intro hx
    rw [getReg_flagReg_setFlagAndReg x _ _ s hx, flagByte_subFlag_toNat]

/-! ### The meanings of the instructions -/

theorem exec_ldVxKk (x : RegIdx) (kk : Byte) (s : State) : exec (.ldVxKk x kk) s = .next (nextPc (setReg x kk s)) := rfl

theorem exec_addVxKk (x : RegIdx) (kk : Byte) (s : State) :
    exec (.addVxKk x kk) s = .next (nextPc (setReg x (getReg x s + kk) s)) := rfl

theorem exec_addVxVy (x y : RegIdx) (s : State) :
    exec (.addVxVy x y) s =
      .next (nextPc (setFlagAndReg x (addFlag (getReg x s) (getReg y s)) (getReg x s + getReg y s) s)) := rfl

theorem exec_subVxVy (x y : RegIdx) (s : State) :
    exec (.subVxVy x y) s =
      .next (nextPc (setFlagAndReg x (subFlag (getReg x s) (getReg y s)) (getReg x s - getReg y s) s)) := rfl

theorem exec_subnVxVy (x y : RegIdx) (s : State) :
    exec (.subnVxVy x y) s =
      .next (nextPc (setFlagAndReg x (subFlag (getReg y s) (getReg x s)) (getReg y s - getReg x s) s)) := rfl

/-! ### The obligations -/

/-- Settles O34: the flag is written first and the result last, both from the operands the step began with. -/
theorem addRegistersSetsCarry : Obligations.AddRegistersSetsCarry := by
  intro x y s
  refine ⟨_, exec_addVxVy x y s, ?_, ?_, sameRegsBut_nextPc_setFlagAndReg x _ _ s,
    pcAdvanced_nextPc_setFlagAndReg x _ _ s, onlyRegsAndPc_nextPc_setFlagAndReg x _ _ s⟩
  · rw [getReg_nextPc, getReg_setFlagAndReg_same, BitVec.toNat_add]
  · intro hx
    rw [getReg_nextPc, getReg_flagReg_setFlagAndReg x _ _ s hx, flagByte_addFlag_toNat]

/-- Settles O35: the difference of register x and register y. -/
theorem subRegistersSetsStrictlyGreater : Obligations.SubRegistersSetsStrictlyGreater := by
  intro x y s
  obtain ⟨hdiff, hflag⟩ := difference_and_flag_written x (getReg x s) (getReg y s) s
  exact ⟨_, exec_subVxVy x y s, hdiff, hflag, sameRegsBut_nextPc_setFlagAndReg x _ _ s,
    pcAdvanced_nextPc_setFlagAndReg x _ _ s, onlyRegsAndPc_nextPc_setFlagAndReg x _ _ s⟩

/-- Settles O36: as SUB, with the two operands exchanged and the same destination. -/
theorem subnReversesTheOperands : Obligations.SubnReversesTheOperands := by
  intro x y s
  obtain ⟨hdiff, hflag⟩ := difference_and_flag_written x (getReg y s) (getReg x s) s
  exact ⟨_, exec_subnVxVy x y s, hdiff, hflag, sameRegsBut_nextPc_setFlagAndReg x _ _ s,
    pcAdvanced_nextPc_setFlagAndReg x _ _ s, onlyRegsAndPc_nextPc_setFlagAndReg x _ _ s⟩

/-- Settles O30: the word is format XK's with opcode 6, and the meaning is one register write. -/
theorem loadImmediateSetsTheRegister : Obligations.LoadImmediateSetsTheRegister := by
  intro x kk s
  constructor
  · exact formatXK_toNat 0x6#4 x kk
  · exact ⟨_, exec_ldVxKk x kk s, getReg_setReg_same x kk s, sameRegsBut_nextPc_setReg x kk s,
      pcAdvanced_nextPc_setReg x kk s, onlyRegsAndPc_nextPc_setReg x kk s⟩

/-- Settles O31: one register write, so VF is as before unless it is the destination. -/
theorem addImmediateWrapsWithoutFlag : Obligations.AddImmediateWrapsWithoutFlag := by
  intro x kk s
  have hsum : (getReg x (nextPc (setReg x (getReg x s + kk) s))).toNat = ((getReg x s).toNat + kk.toNat) % 256 := by
    rw [getReg_nextPc, getReg_setReg_same, BitVec.toNat_add]
  exact ⟨_, exec_addVxKk x kk s, hsum, sameRegsBut_nextPc_setReg x _ s, pcAdvanced_nextPc_setReg x _ s,
    onlyRegsAndPc_nextPc_setReg x _ s⟩

end Sys2Proof.Proofs
end

section
/-! The proofs about the address register and memory (spec/43_address_memory.md). -/

namespace Sys2Proof.Proofs

open Sys2Proof.Machine

/-! ### An instruction that writes the address register -/

section
variable (w : Word) (s : State)

theorem pcAdvanced_nextPc_setI : PcAdvanced 2 s (nextPc (setI w s)) := pcAdvanced_nextPc (setI w s)

theorem onlyIAndPc_nextPc_setI : OnlyIAndPc s (nextPc (setI w s)) :=
  ⟨fun z => getReg_setI z w s, ⟨rfl, rfl⟩, ⟨rfl, rfl⟩, ⟨rfl, rfl, rfl⟩, fun a => readByte_setI a w s, fun _ => rfl,
    ⟨rfl, rfl⟩⟩

end

/-- Zero extension keeps the register's value. -/
theorem regAsWord_toNat (x : RegIdx) (s : State) : (regAsWord x s).toNat = (getReg x s).toNat :=
  BitVec.toNat_setWidth_of_le (by decide)

/-! ### An instruction that stores a block of bytes at `I` -/

section
variable (bs : List Byte) (s : State)

theorem pcAdvanced_nextPc_writeBytes (a : Nat) : PcAdvanced 2 s (nextPc (writeBytes a bs s)) := by
  have h := pcAdvanced_nextPc (writeBytes a bs s)
  rwa [PcAdvanced, writeBytes_pc] at h

theorem onlyMemoryAndPc_nextPc_writeBytes (a : Nat) : OnlyMemoryAndPc s (nextPc (writeBytes a bs s)) := by
  rw [writeBytes_eq]
  exact ⟨fun _ => rfl, rfl, ⟨rfl, rfl⟩, ⟨rfl, rfl⟩, ⟨rfl, rfl, rfl⟩, fun _ => rfl, ⟨rfl, rfl⟩⟩

/-- Byte `k` of the block stands at `I + k`, wherever the block wraps (R62, R63). -/
theorem readByte_nextPc_writeBytes_at {k : Nat} (hk : k < bs.length) (hlen : bs.length ≤ 4096) :
    readByte (effectiveAddr s k) (nextPc (writeBytes (effectiveAddr s 0) bs s)) = bs[k] :=
  readByte_writeBytes_at bs (effectiveAddr s 0) s k hk hlen

/-- An address that meets none of the block's, all reduced, reads as before (R62). -/
theorem readByte_nextPc_writeBytes_other {a : Nat}
    (ha : ∀ k < bs.length, a % 4096 ≠ effectiveAddr s k % 4096) :
    readByte a (nextPc (writeBytes (effectiveAddr s 0) bs s)) = readByte a s :=
  readByte_writeBytes_other bs (effectiveAddr s 0) a s ha

end

/-! ### The decimal digits as numbers -/

@[simp] theorem bcdDigits_length (b : Byte) : (bcdDigits b).length = 3 := rfl

/-- Each digit of a byte fits a byte, so storing it loses nothing (R193). -/
theorem bcdDigits_getElem_toNat (b : Byte) :
    (bcdDigits b)[0].toNat = b.toNat / 100 ∧ (bcdDigits b)[1].toNat = b.toNat / 10 % 10 ∧
    (bcdDigits b)[2].toNat = b.toNat % 10 := by
  have hb := b.isLt
  have hhundreds : b.toNat / 100 < 2 ^ 8 := by omega
  have htens : b.toNat / 10 % 10 < 2 ^ 8 := by omega
  have hones : b.toNat % 10 < 2 ^ 8 := by omega
  exact ⟨Nat.mod_eq_of_lt hhundreds, Nat.mod_eq_of_lt htens, Nat.mod_eq_of_lt hones⟩

/-! ### The meanings of the instructions -/

theorem exec_ldINnn (nnn : Addr12) (s : State) :
    exec (.ldINnn nnn) s = .next (nextPc (setI (addrOperand nnn) s)) := rfl

theorem exec_addIVx (x : RegIdx) (s : State) :
    exec (.addIVx x) s = .next (nextPc (setI (s.i + regAsWord x s) s)) := rfl

theorem exec_ldBVx (x : RegIdx) (s : State) :
    exec (.ldBVx x) s = .next (nextPc (writeBytes (effectiveAddr s 0) (bcdDigits (getReg x s)) s)) := rfl

/-! ### The obligations -/

/-- Settles O43: the stored block is the three digits, which stand at three different
addresses although each is reduced on its own. -/
theorem storeBcdWritesThreeDigits : Obligations.StoreBcdWritesThreeDigits := by
  intro x s
  obtain ⟨hhundreds, htens, hones⟩ := bcdDigits_getElem_toNat (getReg x s)
  have hread {k : Nat} (hk : k < 3) :=
    readByte_nextPc_writeBytes_at (bcdDigits (getReg x s)) s hk (show 3 ≤ 4096 by decide)
  refine ⟨_, exec_ldBVx x s, ?_, ?_, ?_, fun a ha => readByte_nextPc_writeBytes_other _ s ha,
    pcAdvanced_nextPc_writeBytes _ s _, onlyMemoryAndPc_nextPc_writeBytes _ s _⟩
  · rw [hread (k := 0) (by decide), hhundreds]
  · rw [hread (k := 1) (by decide), htens]
  · rw [hread (k := 2) (by decide), hones]

/-- Settles O40: zero extension keeps the address's value. -/
theorem loadAddressSetsI : Obligations.LoadAddressSetsI :=
  fun nnn s => ⟨_, exec_ldINnn nnn s, addrOperand_toNat nnn, pcAdvanced_nextPc_setI _ s, onlyIAndPc_nextPc_setI _ s⟩

/-- Settles O41: the sum is one write of `I` in its 16 bits, so no register changes. -/
theorem addToAddressWrapsAt65536 : Obligations.AddToAddressWrapsAt65536 := by
  intro x s
  have hsum : (s.i + regAsWord x s).toNat = (s.i.toNat + (getReg x s).toNat) % 65536 := by
    rw [BitVec.toNat_add, regAsWord_toNat]
  exact ⟨_, exec_addIVx x s, hsum, pcAdvanced_nextPc_setI _ s, onlyIAndPc_nextPc_setI _ s⟩

end Sys2Proof.Proofs
end

section
/-! The proofs about the display (spec/44_display.md). -/

namespace Sys2Proof.Proofs

open Sys2Proof.Machine

/-! ### An instruction that replaces the display -/

section
variable (d : Display) (s : State)

theorem pcAdvanced_nextPc_setDisp : PcAdvanced 2 s (nextPc (setDisp d s)) := pcAdvanced_nextPc (setDisp d s)

theorem onlyDisplayAndPc_nextPc_setDisp : OnlyDisplayAndPc s (nextPc (setDisp d s)) :=
  ⟨fun z => getReg_setDisp z d s, rfl, ⟨rfl, rfl⟩, ⟨rfl, rfl⟩, ⟨rfl, rfl, rfl⟩, fun a => readByte_setDisp a d s,
    ⟨rfl, rfl⟩⟩

end

/-! ### The meaning of the instruction -/

theorem exec_cls (s : State) : exec .cls s = .next (nextPc (setDisp Display.blank s)) := rfl

/-! ### The obligation -/

/-- Settles O47: the display is replaced by the blank one, in which no cell is lit. -/
theorem clearUnlightsEveryCell : Obligations.ClearUnlightsEveryCell := by
  intro s
  have hunlit : ∀ j < 4096, (nextPc (setDisp Display.blank s)).disp.lit j = false :=
    fun j _ => Display.lit_blank j
  exact ⟨_, exec_cls s, hunlit, pcAdvanced_nextPc_setDisp _ s, onlyDisplayAndPc_nextPc_setDisp _ s⟩

end Sys2Proof.Proofs
end

section
/-! The proofs about the keypad and the timers (spec/45_keypad_timers.md). -/

namespace Sys2Proof.Proofs

open Sys2Proof.Machine

/-! ### The key that a register names -/

/-- The low 4 bits of a byte are its value modulo 16 (R230). -/
theorem keyOperand_val (x : RegIdx) (s : State) : (keyOperand x s).val = (getReg x s).toNat % 16 :=
  BitVec.extractLsb'_toNat 0 4 (getReg x s)

theorem keyPressed_eq (x : RegIdx) (s : State) : keyPressed x s = s.key[(getReg x s).toNat % 16] := by
  simp only [keyPressed, Fin.getElem_fin, keyOperand_val]

/-- A skip on a condition that fails: the two distances change places. -/
theorem pcAdvanced_skipIf_not (c : Bool) (s : State) : PcAdvanced (if c then 2 else 4) s (skipIf (!c) s) := by
  cases c with
  | true => exact pcAdvanced_skipIf false s
  | false => exact pcAdvanced_skipIf true s

/-! ### An instruction that writes a timer -/

/-- Nothing but the timers and `pc` differs. -/
def OnlyTimersAndPc (s t : State) : Prop :=
  SameRegs s t ∧ t.i = s.i ∧ SameStack s t ∧ SameLatch s t ∧ SameMemory s t ∧ SameDisplay s t ∧ SameInputs s t

section
variable (b : Byte) (s : State)

theorem pcAdvanced_nextPc_setDt : PcAdvanced 2 s (nextPc (setDt b s)) := pcAdvanced_nextPc (setDt b s)

theorem pcAdvanced_nextPc_setSt : PcAdvanced 2 s (nextPc (setSt b s)) := pcAdvanced_nextPc (setSt b s)

/-- The frame of a write to both timers; a write to one of them is this with the other written back. -/
theorem onlyTimersAndPc_nextPc_setDt_setSt (c : Byte) : OnlyTimersAndPc s (nextPc (setDt b (setSt c s))) :=
  ⟨fun _ => rfl, rfl, ⟨rfl, rfl⟩, ⟨rfl, rfl, rfl⟩, fun _ => rfl, fun _ => rfl, ⟨rfl, rfl⟩⟩

theorem onlyTimersAndPc_nextPc_setDt : OnlyTimersAndPc s (nextPc (setDt b s)) :=
  onlyTimersAndPc_nextPc_setDt_setSt b s s.st

theorem onlyTimersAndPc_nextPc_setSt : OnlyTimersAndPc s (nextPc (setSt b s)) :=
  onlyTimersAndPc_nextPc_setDt_setSt s.dt s b

end

/-! ### The meanings of the instructions -/

theorem exec_skpVx (x : RegIdx) (s : State) : exec (.skpVx x) s = .next (skipIf (keyPressed x s) s) := rfl

theorem exec_sknpVx (x : RegIdx) (s : State) : exec (.sknpVx x) s = .next (skipIf (!keyPressed x s) s) := rfl

theorem exec_ldVxDt (x : RegIdx) (s : State) : exec (.ldVxDt x) s = .next (nextPc (setReg x s.dt s)) := rfl

theorem exec_ldDtVx (x : RegIdx) (s : State) : exec (.ldDtVx x) s = .next (nextPc (setDt (getReg x s) s)) := rfl

theorem exec_ldStVx (x : RegIdx) (s : State) : exec (.ldStVx x) s = .next (nextPc (setSt (getReg x s) s)) := rfl

/-! ### The obligations -/

/-- Settles O50: both instructions are a `skipIf`, on the named key's state and on its negation. -/
theorem skipOnKeyState : Obligations.SkipOnKeyState := by
  intro x s
  rw [← keyPressed_eq x s]
  constructor
  · exact ⟨_, exec_skpVx x s, onlyPc_skipIf _ s, pcAdvanced_skipIf _ s⟩
  · exact ⟨_, exec_sknpVx x s, onlyPc_skipIf _ s, pcAdvanced_skipIf_not _ s⟩

/-- Settles O51: the meaning is one register write, and the frame of a register write keeps both timers. -/
theorem loadDelayTimerReadsDt : Obligations.LoadDelayTimerReadsDt :=
  fun x s => ⟨_, exec_ldVxDt x s, getReg_setReg_same x s.dt s, sameRegsBut_nextPc_setReg x s.dt s,
    pcAdvanced_nextPc_setReg x s.dt s, onlyRegsAndPc_nextPc_setReg x s.dt s⟩

/-- Settles O52: each meaning is one timer write, which leaves the other timer alone. -/
theorem storeTimersWriteTheirTimerOnly : Obligations.StoreTimersWriteTheirTimerOnly := by
  intro x s
  constructor
  · exact ⟨_, exec_ldDtVx x s, setDt_dt (getReg x s) s, setDt_st (getReg x s) s, pcAdvanced_nextPc_setDt _ s,
      onlyTimersAndPc_nextPc_setDt _ s⟩
  · exact ⟨_, exec_ldStVx x s, setSt_st (getReg x s) s, setSt_dt (getReg x s) s, pcAdvanced_nextPc_setSt _ s,
      onlyTimersAndPc_nextPc_setSt _ s⟩

end Sys2Proof.Proofs
end

section
/-! The proofs about the fatal errors and the timer tick (spec/60_exceptions.md). -/

namespace Sys2Proof.Proofs

open Sys2Proof.Machine Sys2Proof.Laws

/-! ### Which words decode to RET and to CALL -/

section
variable {w : Word} {i : Instr}

theorem primary_of_decodeGroup0 (h : decodeGroup0 w = .ok i) : OpField.primary i = 0x0 := by
  unfold decodeGroup0 at h
  split_ifs at h <;> cases h <;> rfl

theorem primary_of_decodeGroup8 (h : decodeGroup8 w = .ok i) : OpField.primary i = 0x8 := by
  unfold decodeGroup8 at h
  split at h <;> cases h <;> rfl

theorem primary_of_decodeGroupE (h : decodeGroupE w = .ok i) : OpField.primary i = 0xE := by
  unfold decodeGroupE at h
  split at h <;> cases h <;> rfl

theorem primary_of_decodeGroupF (h : decodeGroupF w = .ok i) : OpField.primary i = 0xF := by
  unfold decodeGroupF at h
  split at h <;> cases h <;> rfl

/-- The top 4 bits of a word that decodes are the primary opcode of its instruction (R94). -/
theorem primary_of_decode (h : decode w = .ok i) : OpField.primary i = (opField w).toNat := by
  have hop : (opField w).toNat < 16 := (opField w).isLt
  unfold decode at h
  split at h
  case h_1 h0 => rw [h0, primary_of_decodeGroup0 h]
  case h_9 h8 => rw [h8, primary_of_decodeGroup8 h]
  case h_15 hE => rw [hE, primary_of_decodeGroupE h]
  case h_16 =>
    -- The last arm has no pattern: 0xF is the one value that the arms before it leave.
    simp only [imp_false] at *
    rw [primary_of_decodeGroupF h]
    omega
  case h_6 h5 => split_ifs at h; cases h; exact h5.symm
  case h_10 h9 => split_ifs at h; cases h; exact h9.symm
  all_goals
    cases h
    symm
    assumption

/-- RET is the one word 0x00EE (R95). -/
theorem decode_eq_ret_iff : decode w = .ok .ret ↔ w.toNat = 0x00EE := by
  constructor
  · intro h
    have hgroup : decodeGroup0 w = .ok .ret := by rw [← decode_op0 (primary_of_decode h).symm, h]
    unfold decodeGroup0 at hgroup
    split_ifs at hgroup with hcls hret
    · cases hgroup
    · rw [hret]
      rfl
  · intro h
    have hword : w = 0x00EE#16 := BitVec.eq_of_toNat_eq h
    rw [hword]
    rfl

/-- The words of CALL are those whose top 4 bits are 2 (R94). -/
theorem exists_decode_eq_call_iff : (∃ nnn, decode w = .ok (.call nnn)) ↔ w.toNat / 0x1000 = 0x2 := by
  rw [← opField_toNat]
  constructor
  · rintro ⟨nnn, h⟩
    exact (primary_of_decode h).symm
  · intro h
    exact ⟨nnnField w, decode_op2 h⟩

end

/-! ### The fatal errors of each operation -/

section
variable {s : State}

theorem exec_ret_of_empty (h : s.sp.val = 0) : exec .ret s = .fault .stackUnderflow := by
  simp only [exec, execRet, popReturn_none.2 h, raise]

theorem exec_call_of_full (nnn : Addr12) (h : s.sp.val = 16) : exec (.call nnn) s = .fault .stackOverflow := by
  simp only [exec, execCall, pushReturn_none.2 h, raise]

/-- A step that ends in a fatal error is not suspended, and it is RET on the empty stack, CALL on the full one or an
illegal word (R251 to R253). -/
theorem step_fault {f : Fault} (h : step s = .fault f) :
    s.waiting = false ∧
      ((f = .stackUnderflow ∧ decode (fetchWord s) = .ok .ret ∧ s.sp.val = 0) ∨
        (f = .stackOverflow ∧ (∃ nnn, decode (fetchWord s) = .ok (.call nnn)) ∧ s.sp.val = 16) ∨
        ∃ w, f = .unhandledInstruction w) := by
  rcases step_cases s with ⟨_, hs⟩ | ⟨hw, _, hs⟩ | ⟨hw, i, hd, hs⟩
  · cases hs.symm.trans h
  · cases hs.symm.trans h
    exact ⟨hw, .inr (.inr ⟨_, rfl⟩)⟩
  · refine ⟨hw, ?_⟩
    rcases exec_fault (hs.symm.trans h) with ⟨rfl, hsp, hf⟩ | ⟨nnn, rfl, hsp, hf⟩ | ⟨_, _, _, _, hf⟩
    · exact .inl ⟨hf, hd, hsp⟩
    · exact .inr (.inl ⟨hf, ⟨nnn, hd⟩, hsp⟩)
    · exact .inr (.inr ⟨_, hf⟩)

theorem step_ne_loadOverflow : step s ≠ .fault .loadOverflow := by
  intro h
  obtain ⟨_, ⟨hf, _⟩ | ⟨hf, _⟩ | ⟨_, hf⟩⟩ := step_fault h <;> cases hf

theorem load_eq_loadOverflow_iff {image : List Byte} :
    load image s = .fault .loadOverflow ↔ image.length > maxImage := by
  unfold load
  split_ifs with hlen
  · exact iff_of_true rfl hlen
  · exact iff_of_false (fun h => nomatch h) hlen

end

/-! ### The tick -/

theorem countDown_toNat (t : Byte) : (countDown t).toNat = t.toNat - 1 := by
  unfold countDown
  split_ifs with h
  · rw [h]; rfl
  · bv_omega

/-! ### The obligations -/

/-- Settles O9: of the fatal errors of a step only RET's on the empty stack is StackUnderflow. -/
theorem stackUnderflowExactlyOnRetWithEmptyStack : Obligations.StackUnderflowExactlyOnRetWithEmptyStack := by
  intro s
  rw [← fetchWord_toNat, ← decode_eq_ret_iff]
  constructor
  · intro h
    obtain ⟨hw, ⟨_, hret, hsp⟩ | ⟨hf, _⟩ | ⟨_, hf⟩⟩ := step_fault h
    · exact ⟨hw, hret, hsp⟩
    · cases hf
    · cases hf
  · rintro ⟨hw, hret, hsp⟩
    rw [step_of_decode hw hret, exec_ret_of_empty hsp]

/-- Settles O10: of the fatal errors of a step only CALL's on the full stack is StackOverflow. -/
theorem stackOverflowExactlyOnCallWithFullStack : Obligations.StackOverflowExactlyOnCallWithFullStack := by
  intro s
  rw [← fetchWord_toNat, ← exists_decode_eq_call_iff]
  constructor
  · intro h
    obtain ⟨hw, ⟨hf, _⟩ | ⟨_, hcall, hsp⟩ | ⟨_, hf⟩⟩ := step_fault h
    · cases hf
    · exact ⟨hw, hcall, hsp⟩
    · cases hf
  · rintro ⟨hw, ⟨nnn, hcall⟩, hsp⟩
    rw [step_of_decode hw hcall, exec_call_of_full nnn hsp]

/-- Settles O11: a step never raises it, `load` does by the image's length, and the other operations raise nothing. -/
theorem loadOverflowExactlyOnLongImages : Obligations.LoadOverflowExactlyOnLongImages := by
  intro op s
  cases op with
  | step => exact iff_of_false step_ne_loadOverflow (fun ⟨_, h, _⟩ => nomatch h)
  | tick | setKey _ _ | reset => exact iff_of_false (fun h => nomatch h) (fun ⟨_, h, _⟩ => nomatch h)
  | load image =>
    refine load_eq_loadOverflow_iff.trans ⟨fun hlen => ⟨image, rfl, hlen⟩, ?_⟩
    rintro ⟨_, himage, hlen⟩
    cases himage
    exact hlen

/-- Settles O54: a tick is one write to each timer, and no other part of the state sees either. -/
theorem tickCountsDownToZero : Obligations.TickCountsDownToZero := fun s =>
  ⟨tick s, rfl, countDown_toNat s.dt, countDown_toNat s.st, fun _ => rfl, rfl, rfl, ⟨rfl, rfl⟩, ⟨rfl, rfl, rfl⟩,
    fun _ => rfl, fun _ => rfl, ⟨rfl, rfl⟩⟩

end Sys2Proof.Proofs
end

section
/-! The proofs about the encoding (spec/30_encoding.md). -/

namespace Sys2Proof.Proofs

open Sys2Proof.Machine Sys2Proof.Laws

/-! ### A word is made of its fields (R91, R92) -/

section
variable {w : Word} {op : BitVec 4}

theorem formatA_fields (hop : (opField w).toNat = op.toNat) : formatA op (nnnField w) = w := by
  have := w.isLt
  apply BitVec.eq_of_toNat_eq
  rw [formatA_toNat, nnnField_toNat, ← hop, opField_toNat]
  omega

theorem formatXK_fields {kk : Byte} (hop : (opField w).toNat = op.toNat) (hkk : (kkField w).toNat = kk.toNat) :
    formatXK op (xField w) kk = w := by
  have := w.isLt
  apply BitVec.eq_of_toNat_eq
  rw [formatXK_toNat, xField_val, ← hkk, kkField_toNat, ← hop, opField_toNat]
  omega

theorem formatXYN_fields {n : RowCount} (hop : (opField w).toNat = op.toNat) (hn : (nField w).val = n.val) :
    formatXYN op (xField w) (yField w) n = w := by
  have := w.isLt
  apply BitVec.eq_of_toNat_eq
  rw [formatXYN_toNat, xField_val, yField_val, ← hn, nField_val, ← hop, opField_toNat]
  omega

end

/-! ### The decoder and the encoder are inverse to each other -/

/-- Each word is read back by its format: the top 4 bits select the group, the fixed sub-field the instruction, and the
other fields are its operands (R94 to R99). -/
theorem decode_encode (i : Instr) : decode (encode i) = .ok i := by
  cases i with
  | cls | ret => rfl
  | jp | call | ldINnn | jpV0Nnn => simp [encode, decode_op1, decode_op2, decode_opA, decode_opB]
  | seVxKk | sneVxKk | ldVxKk | addVxKk | rndVxKk =>
    simp [encode, decode_op3, decode_op4, decode_op6, decode_op7, decode_opC]
  | seVxVy | sneVxVy | drwVxVyN => simp [encode, decode_op5, decode_op9, decode_opD]
  | ldVxVy | orVxVy | andVxVy | xorVxVy | addVxVy | subVxVy | shrVxVy | subnVxVy | shlVxVy =>
    simp [encode, decode_op8, decodeGroup8]
  | skpVx | sknpVx => simp [encode, decode_opE, decodeGroupE]
  | ldVxDt | ldVxK | ldDtVx | ldStVx | addIVx | ldFVx | ldBVx | ldMemIVx | ldVxMemI =>
    simp [encode, decode_opF, decodeGroupF]

section
variable {w : Word} {i : Instr}

theorem encode_of_decodeGroup0 (h : decodeGroup0 w = .ok i) : encode i = w := by
  unfold decodeGroup0 at h
  split_ifs at h with hcls hret
  · cases h; exact hcls.symm
  · cases h; exact hret.symm

theorem encode_of_decodeGroup8 (hop : (opField w).toNat = 0x8) (h : decodeGroup8 w = .ok i) : encode i = w := by
  unfold decodeGroup8 at h
  split at h <;> cases h <;> exact formatXYN_fields hop ‹_›

theorem encode_of_decodeGroupE (hop : (opField w).toNat = 0xE) (h : decodeGroupE w = .ok i) : encode i = w := by
  unfold decodeGroupE at h
  split at h <;> cases h <;> exact formatXK_fields hop ‹_›

theorem encode_of_decodeGroupF (hop : (opField w).toNat = 0xF) (h : decodeGroupF w = .ok i) : encode i = w := by
  unfold decodeGroupF at h
  split at h <;> cases h <;> exact formatXK_fields hop ‹_›

/-- The fields that the decoder takes from a word make the word up. -/
theorem encode_of_decode (h : decode w = .ok i) : encode i = w := by
  have hlt : (opField w).toNat < 16 := (opField w).isLt
  unfold decode at h
  split at h
  case h_1 => exact encode_of_decodeGroup0 h
  case h_9 hop => exact encode_of_decodeGroup8 hop h
  case h_15 hop => exact encode_of_decodeGroupE hop h
  case h_16 =>
    -- 0xF is the one value that the arms before this one leave.
    simp only [imp_false] at *
    have hop : (opField w).toNat = 0xF := by omega
    exact encode_of_decodeGroupF hop h
  case h_6 hop | h_10 hop =>
    split_ifs at h with hn
    cases h
    exact formatXYN_fields hop (congrArg Fin.val hn)
  case h_14 hop => cases h; exact formatXYN_fields hop rfl
  case h_2 hop | h_3 hop | h_11 hop | h_12 hop => cases h; exact formatA_fields hop
  all_goals
    cases h
    exact formatXK_fields ‹_› rfl

end

/-! ### The illegal words -/

section
variable {w : Word} {e : Reject} {c : Config}

theorem illegalWord_of_decodeGroup0_error (hop : (opField w).toNat = 0x0) (h : decodeGroup0 w = .error e) :
    IllegalWord c w.toNat := by
  rw [opField_toNat] at hop
  unfold decodeGroup0 at h
  split_ifs at h with hcls hret
  rw [← BitVec.toNat_inj] at hcls hret
  exact .inl ⟨by omega, hcls, hret⟩

theorem illegalWord_of_decodeGroup8_error (hop : (opField w).toNat = 0x8) (h : decodeGroup8 w = .error e) :
    IllegalWord c w.toNat := by
  rw [opField_toNat] at hop
  unfold decodeGroup8 at h
  split at h <;> cases h
  simp only [nField_val, imp_false] at *
  refine .inr (.inr (.inl ⟨hop, .inl ?_⟩))
  simp only [List.mem_cons, List.not_mem_nil, or_false]
  omega

theorem illegalWord_of_decodeGroupE_error (hop : (opField w).toNat = 0xE) (h : decodeGroupE w = .error e) :
    IllegalWord c w.toNat := by
  rw [opField_toNat] at hop
  unfold decodeGroupE at h
  split at h <;> cases h
  simp only [kkField_toNat, imp_false] at *
  refine .inr (.inr (.inr (.inr (.inl ⟨hop, ?_⟩))))
  simp only [List.mem_cons, List.not_mem_nil, or_false]
  omega

theorem illegalWord_of_decodeGroupF_error (hop : (opField w).toNat = 0xF) (h : decodeGroupF w = .error e) :
    IllegalWord c w.toNat := by
  rw [opField_toNat] at hop
  unfold decodeGroupF at h
  split at h <;> cases h
  simp only [kkField_toNat, imp_false] at *
  refine .inr (.inr (.inr (.inr (.inr ⟨hop, ?_⟩))))
  simp only [List.mem_cons, List.not_mem_nil, or_false]
  omega

/-- A word that the decoder rejects is in one of the classes of R100, at every setting of the parameters. -/
theorem illegalWord_of_decode_error (h : decode w = .error e) : IllegalWord c w.toNat := by
  have hlt : (opField w).toNat < 16 := (opField w).isLt
  unfold decode at h
  split at h
  case h_1 hop => exact illegalWord_of_decodeGroup0_error hop h
  case h_9 hop => exact illegalWord_of_decodeGroup8_error hop h
  case h_15 hop => exact illegalWord_of_decodeGroupE_error hop h
  case h_16 =>
    simp only [imp_false] at *
    have hop : (opField w).toNat = 0xF := by omega
    exact illegalWord_of_decodeGroupF_error hop h
  case h_6 hop =>
    split_ifs at h with hn
    rw [opField_toNat] at hop
    rw [Fin.ext_iff, nField_val] at hn
    exact .inr (.inl ⟨hop, hn⟩)
  case h_10 hop =>
    split_ifs at h with hn
    rw [opField_toNat] at hop
    rw [Fin.ext_iff, nField_val] at hn
    exact .inr (.inr (.inr (.inl ⟨hop, hn⟩)))
  all_goals cases h

end

/-- R100's list by the three numbers it asks for: the top digit, the low digit and the low byte. -/
theorem illegalWord_iff (c : Config) (w : Nat) : IllegalWord c w ↔
    (w / 0x1000 = 0x0 ∧ w ≠ 0x00E0 ∧ w ≠ 0x00EE) ∨
    (w / 0x1000 = 0x5 ∧ w % 16 ≠ 0) ∨
    (w / 0x1000 = 0x8 ∧
      (w % 16 ∈ [0x8, 0x9, 0xA, 0xB, 0xC, 0xD, 0xF] ∨ (w % 16 = 0 ∧ c.enableCopy8xy0 = false))) ∨
    (w / 0x1000 = 0x9 ∧ w % 16 ≠ 0) ∨
    (w / 0x1000 = 0xE ∧ w % 256 ∉ [0x9E, 0xA1]) ∨
    (w / 0x1000 = 0xF ∧ w % 256 ∉ [0x07, 0x0A, 0x15, 0x18, 0x1E, 0x29, 0x33, 0x55, 0x65]) := by
  have htop : w < 0x1000 ↔ w / 0x1000 = 0x0 := by omega
  rw [IllegalWord, htop]

theorem encode_div_4096 (i : Instr) : (encode i).toNat / 0x1000 = OpField.primary i := by
  rw [← opField_toNat]
  exact (primary_of_decode (decode_encode i)).symm

theorem formatXK_mod_256 (op : BitVec 4) (x : RegIdx) (kk : Byte) : (formatXK op x kk).toNat % 256 = kk.toNat := by
  rw [← kkField_toNat, kkField_formatXK]

theorem formatXYN_mod_16 (op : BitVec 4) (x y : RegIdx) (n : RowCount) : (formatXYN op x y n).toNat % 16 = n.val := by
  rw [← nField_val, nField_formatXYN]

/-- R100 lists the word of an instruction exactly where the instruction is not legal: of all of them only the copy, and
only where it is disabled (R100 (c), R102). -/
theorem wellFormed_iff_not_illegalWord (c : Config) (i : Instr) :
    i.wellFormed c = true ↔ ¬ IllegalWord c (encode i).toNat := by
  rw [illegalWord_iff, encode_div_4096]
  cases i with
  | ldVxVy => simp [OpField.primary, Instr.wellFormed, encode, formatXYN_mod_16]
  | cls | ret => exact iff_of_true rfl (by simp [OpField.primary, encode])
  | jp | call | ldINnn | jpV0Nnn | seVxKk | sneVxKk | ldVxKk | addVxKk | rndVxKk | drwVxVyN =>
    exact iff_of_true rfl (by simp [OpField.primary])
  | seVxVy | sneVxVy | orVxVy | andVxVy | xorVxVy | addVxVy | subVxVy | shrVxVy | subnVxVy | shlVxVy =>
    exact iff_of_true rfl (by simp [OpField.primary, encode, formatXYN_mod_16])
  | skpVx | sknpVx | ldVxDt | ldVxK | ldDtVx | ldStVx | addIVx | ldFVx | ldBVx | ldMemIVx | ldVxMemI =>
    exact iff_of_true rfl (by simp [OpField.primary, encode, formatXK_mod_256])

theorem wellFormed_eq_false_iff (c : Config) (i : Instr) :
    i.wellFormed c = false ↔ IllegalWord c (encode i).toNat := by
  rw [← Bool.not_eq_true, wellFormed_iff_not_illegalWord, not_not]

/-- An instruction raises UnhandledInstruction exactly where it is not legal, and with its own word (R123, R162). -/
theorem exec_eq_unhandledInstruction_iff {i : Instr} {s : State} {w : Word} :
    exec i s = .fault (.unhandledInstruction w) ↔ i.wellFormed s.config = false ∧ w = encode i := by
  constructor
  · intro h
    rcases exec_fault h with ⟨_, _, hf⟩ | ⟨_, _, _, hf⟩ | ⟨x, y, rfl, hcopy, hf⟩
    · cases hf
    · cases hf
    · cases hf
      exact ⟨hcopy, rfl⟩
  · rintro ⟨hwf, rfl⟩
    cases i
    case ldVxVy x y => simp only [exec, execLdVxVy, hwf, Bool.false_eq_true, if_false, raise]
    all_goals cases hwf

/-! ### The obligations -/

/-- Settles O1, by the instruction's format and group. -/
theorem decodeOfEncodeIsIdentity : Obligations.DecodeOfEncodeIsIdentity := decode_encode

/-- Settles O2, by the decoder's groups: the fields that an arm takes and the sub-field it matches make the word up. -/
theorem encodeOfDecodeIsIdentity : Obligations.EncodeOfDecodeIsIdentity := fun _ _ => encode_of_decode

/-- Settles O3: a rejected word is listed, and a word that decodes is its instruction's, which is listed exactly where
the instruction is not legal. -/
theorem legalWordsAreThoseNotListedIllegal : Obligations.LegalWordsAreThoseNotListedIllegal := by
  intro c w
  cases hd : decode w with
  | error e =>
    exact iff_of_false (fun ⟨_, h, _⟩ => nomatch h) (not_not_intro (illegalWord_of_decode_error hd))
  | ok i =>
    rw [← encode_of_decode hd, ← wellFormed_iff_not_illegalWord]
    constructor
    · rintro ⟨j, hj, hwf⟩
      rwa [Except.ok.inj hj]
    · exact fun hwf => ⟨i, rfl, hwf⟩

/-- Settles O8: past the suspension check the fetched word is rejected by the decoder or is that of an instruction,
which raises the error exactly where it is not legal. -/
theorem unhandledInstructionExactlyOnIllegalWords : Obligations.UnhandledInstructionExactlyOnIllegalWords := by
  intro s w
  rw [← fetchWord_toNat, BitVec.toNat_inj]
  rcases step_cases s with ⟨hw, hs⟩ | ⟨hw, ⟨e, hd⟩, hs⟩ | ⟨hw, i, hd, hs⟩
  · rw [hs, hw]
    exact iff_of_false (fun h => nomatch h) (fun ⟨h, _⟩ => nomatch h)
  · rw [hs, hw]
    constructor
    · intro h
      cases h
      exact ⟨rfl, rfl, illegalWord_of_decode_error hd⟩
    · rintro ⟨_, rfl, _⟩
      rfl
  · rw [hs, exec_eq_unhandledInstruction_iff, wellFormed_eq_false_iff, encode_of_decode hd]
    constructor
    · rintro ⟨hill, rfl⟩
      exact ⟨hw, rfl, hill⟩
    · rintro ⟨_, rfl, hill⟩
      exact ⟨hill, rfl⟩

/-- Settles O4: each format's word as a number, at the instruction's opcode and fixed sub-field. -/
theorem encodingsAreThoseOfTheOpcodeTable : Obligations.EncodingsAreThoseOfTheOpcodeTable := by
  have hxy (op : BitVec 4) (x y : RegIdx) (n : RowCount) :
      (formatXYN op x y n).toNat = 4096 * op.toNat + n.val + 256 * x.val + 16 * y.val := by
    rw [formatXYN_toNat]; omega
  have hx (op : BitVec 4) (x : RegIdx) (kk : Byte) :
      (formatXK op x kk).toNat = 4096 * op.toNat + kk.toNat + 256 * x.val := by
    rw [formatXK_toNat]; omega
  refine ⟨rfl, rfl, ?_, ?_, ?_, ?_, ?_⟩
  · exact fun nnn => ⟨formatA_toNat 0x1#4 nnn, formatA_toNat 0x2#4 nnn, formatA_toNat 0xA#4 nnn,
      formatA_toNat 0xB#4 nnn⟩
  · exact fun x kk => ⟨formatXK_toNat 0x3#4 x kk, formatXK_toNat 0x4#4 x kk, formatXK_toNat 0x6#4 x kk,
      formatXK_toNat 0x7#4 x kk, formatXK_toNat 0xC#4 x kk⟩
  · exact fun x y => ⟨hxy 0x5#4 x y 0x0, hxy 0x9#4 x y 0x0, hxy 0x8#4 x y 0x0, hxy 0x8#4 x y 0x1, hxy 0x8#4 x y 0x2,
      hxy 0x8#4 x y 0x3, hxy 0x8#4 x y 0x4, hxy 0x8#4 x y 0x5, hxy 0x8#4 x y 0x6, hxy 0x8#4 x y 0x7,
      hxy 0x8#4 x y 0xE⟩
  · exact fun x y n => formatXYN_toNat 0xD#4 x y n
  · exact fun x => ⟨hx 0xE#4 x 0x9E#8, hx 0xE#4 x 0xA1#8, hx 0xF#4 x 0x07#8, hx 0xF#4 x 0x0A#8, hx 0xF#4 x 0x15#8,
      hx 0xF#4 x 0x18#8, hx 0xF#4 x 0x1E#8, hx 0xF#4 x 0x29#8, hx 0xF#4 x 0x33#8, hx 0xF#4 x 0x55#8,
      hx 0xF#4 x 0x65#8⟩

/-- Settles O5: the eleven words, decoded. -/
theorem sampleWordsDecodeAsTheSpecWrites : Obligations.SampleWordsDecodeAsTheSpecWrites := by
  unfold Obligations.SampleWordsDecodeAsTheSpecWrites
  decide

end Sys2Proof.Proofs
end

section
/-! The proofs about control transfer by JP V0, CALL and RET, and about the end of a program (spec/41_control_flow.md,
spec/70_reset_and_hazards.md section 2). -/

namespace Sys2Proof.Proofs

open Sys2Proof.Machine

/-! ### The call stack -/

/-- The stack one entry deeper, `w` on top (R26, R27). -/
def pushed (w : Word) (s : State) (h : s.sp.val < 16) : State :=
  { s with stack := s.stack.set s.sp.val w, sp := ⟨s.sp.val + 1, by omega⟩ }

/-- The stack one entry shallower, the popped entry left dead (R26, R27). -/
def popped (s : State) (h : 0 < s.sp.val) : State := { s with sp := ⟨s.sp.val - 1, by omega⟩ }

theorem pushReturn_of_lt (w : Word) {s : State} (h : s.sp.val < 16) : pushReturn w s = some (pushed w s h) :=
  dif_pos h

theorem popReturn_of_pos {s : State} (h : 0 < s.sp.val) :
    popReturn s = some (s.stack[s.sp.val - 1], popped s h) :=
  dif_pos h

/-! ### The meanings of the instructions -/

theorem exec_jpV0Nnn (nnn : Addr12) (s : State) :
    exec (.jpV0Nnn nnn) s = .next (setPc (addrOperand nnn + regAsWord 0 s) s) := rfl

theorem exec_call_of_lt (nnn : Addr12) {s : State} (h : s.sp.val < 16) :
    exec (.call nnn) s = .next (setPc (addrOperand nnn) (pushed s.pc s h)) := by
  simp only [exec, execCall, pushReturn_of_lt s.pc h]

theorem exec_ret_of_pos {s : State} (h : 0 < s.sp.val) :
    exec .ret s = .next (setPc (s.stack[s.sp.val - 1] + 2) (popped s h)) := by
  simp only [exec, execRet, popReturn_of_pos h]

/-- A CALL that goes on had room on the stack. -/
theorem exec_call_next {nnn : Addr12} {s t : State} (h : exec (.call nnn) s = .next t) :
    ∃ hs : s.sp.val < 16, t = setPc (addrOperand nnn) (pushed s.pc s hs) := by
  have hs : s.sp.val < 16 := by
    by_contra hge
    rw [exec_call_of_full nnn (by omega)] at h
    cases h
  rw [exec_call_of_lt nnn hs] at h
  cases h
  exact ⟨hs, rfl⟩

/-- A RET that goes on had an entry to pop. -/
theorem exec_ret_next {s t : State} (h : exec .ret s = .next t) :
    ∃ hs : 0 < s.sp.val, t = setPc (s.stack[s.sp.val - 1] + 2) (popped s hs) := by
  have hs : 0 < s.sp.val := by
    by_contra hzero
    rw [exec_ret_of_empty (by omega)] at h
    cases h
  rw [exec_ret_of_pos hs] at h
  cases h
  exact ⟨hs, rfl⟩

/-! ### The obligations -/

/-- Settles O27: the RET pops the entry that the CALL pushed, which is the CALL's own address. -/
theorem callThenRetResumesAfterTheCall : Obligations.CallThenRetResumesAfterTheCall := by
  intro nnn s t u hcall hstack hsp
  obtain ⟨hs, rfl⟩ := exec_call_next hcall
  have hspu : u.sp.val = s.sp.val + 1 := congrArg Fin.val hsp
  have hpos : 0 < u.sp.val := by omega
  have hentry : u.stack[u.sp.val - 1] = s.pc := by
    simp only [hstack, hspu, Nat.add_sub_cancel, setPc_stack, pushed, Vector.getElem_set_self]
  refine ⟨_, exec_ret_of_pos hpos, ?_, ?_⟩
  · rw [setPc_pc, hentry]
    exact BitVec.toNat_add s.pc 2
  · apply Fin.ext
    simp only [setPc_sp, popped]
    omega

/-- Settles O24: a suspended step changes nothing, and otherwise the fetched word is a jump, which writes the address
that `pc` already holds. -/
theorem selfJumpLeavesTheState : Obligations.SelfJumpLeavesTheState := by
  rintro s ⟨hop, haddr⟩
  rw [← fetchWord_toNat] at hop haddr
  cases hw : s.waiting with
  | true => exact step_of_waiting hw
  | false =>
    have hpc : addrOperand (nnnField (fetchWord s)) = s.pc := by
      apply BitVec.eq_of_toNat_eq
      rw [addrOperand_toNat, nnnField_toNat, haddr]
    have hjump : decode (fetchWord s) = .ok (.jp (nnnField (fetchWord s))) := decode_op1 (by rw [opField_toNat, hop])
    rw [step_of_decode hw hjump, exec_jp, hpc]
    rfl

/-- Settles O23: the greatest sum, 0xFFF plus 0xFF, needs no reduction in 16 bits. -/
theorem jumpOffsetAddsRegisterZero : Obligations.JumpOffsetAddsRegisterZero := by
  intro nnn s
  have haddr := nnn.isLt
  have hreg := (getReg 0 s).isLt
  refine ⟨_, exec_jpV0Nnn nnn s, ?_, onlyPc_setPc _ s⟩
  rw [setPc_pc, BitVec.toNat_add, addrOperand_toNat, regAsWord_toNat]
  omega

/-- Settles O25: the entry at the old pointer is the CALL's own address, and the others are untouched. -/
theorem callPushesItsAddressAndJumps : Obligations.CallPushesItsAddressAndJumps := by
  intro nnn s h
  exact ⟨_, exec_call_of_lt nnn h, Vector.getElem_set_self h, fun k hk hne => Vector.getElem_set_ne h hk hne.symm, rfl,
    addrOperand_toNat nnn, fun _ => rfl, rfl, ⟨rfl, rfl⟩, ⟨rfl, rfl, rfl⟩, fun _ => rfl, fun _ => rfl, ⟨rfl, rfl⟩⟩

/-- Settles O26: only the pointer and `pc` are written, so the entries stay. -/
theorem retResumesTwoPastThePoppedEntry : Obligations.RetResumesTwoPastThePoppedEntry := by
  intro s h
  exact ⟨_, exec_ret_of_pos h, Nat.sub_add_cancel h, BitVec.toNat_add _ 2, rfl, fun _ => rfl, rfl, ⟨rfl, rfl⟩,
    ⟨rfl, rfl, rfl⟩, fun _ => rfl, fun _ => rfl, ⟨rfl, rfl⟩⟩

end Sys2Proof.Proofs
end

section
/-! The proofs about the logic, the register copy, the shifts and the random draw (spec/42_alu.md sections 3 and 4). -/

namespace Sys2Proof.Proofs

open Sys2Proof.Machine

/-! ### The shifts as numbers -/

theorem shiftOperand_eq (x y : RegIdx) (s : State) :
    shiftOperand x y s = if s.config.shiftSource = .y then getReg y s else getReg x s := by
  unfold shiftOperand
  cases s.config.shiftSource <;> rfl

theorem byte_ushiftRight_one_toNat (b : Byte) : (b >>> 1).toNat = b.toNat / 2 := by
  rw [BitVec.toNat_ushiftRight, Nat.shiftRight_one]

theorem byte_shiftLeft_one_toNat (b : Byte) : (b <<< 1).toNat = 2 * b.toNat % 256 := by
  rw [BitVec.toNat_shiftLeft, Nat.shiftLeft_eq, Nat.mul_comm]

theorem flagByte_getLsbD_toNat (b : Byte) (k : Nat) : (flagByte (b.getLsbD k)).toNat = b.toNat / 2 ^ k % 2 := by
  rw [flagByte_toNat, BitVec.getLsbD, Nat.testBit_eq_decide_div_mod_eq]
  have := Nat.mod_two_eq_zero_or_one (b.toNat / 2 ^ k)
  simp only [decide_eq_true_eq]
  split_ifs <;> omega

theorem flagByte_shrFlag_toNat (b : Byte) : (flagByte (shrFlag b)).toNat = b.toNat % 2 := by
  rw [shrFlag, flagByte_getLsbD_toNat, pow_zero, Nat.div_one]

theorem flagByte_shlFlag_toNat (c : Config) (b : Byte) :
    (flagByte (shlFlag c b)).toNat = if c.strictShiftSemantics then b.toNat / 128 else b.toNat % 2 := by
  have hb := b.isLt
  unfold shlFlag
  split_ifs
  · rw [flagByte_getLsbD_toNat]
    omega
  · rw [flagByte_getLsbD_toNat, pow_zero, Nat.div_one]

/-! ### The meanings of the instructions -/

theorem exec_orVxVy (x y : RegIdx) (s : State) :
    exec (.orVxVy x y) s = .next (nextPc (setReg x (getReg x s ||| getReg y s) s)) := rfl

theorem exec_andVxVy (x y : RegIdx) (s : State) :
    exec (.andVxVy x y) s = .next (nextPc (setReg x (getReg x s &&& getReg y s) s)) := rfl

theorem exec_xorVxVy (x y : RegIdx) (s : State) :
    exec (.xorVxVy x y) s = .next (nextPc (setReg x (getReg x s ^^^ getReg y s) s)) := rfl

theorem exec_ldVxVy_of_enabled (x y : RegIdx) {s : State} (h : s.config.enableCopy8xy0 = true) :
    exec (.ldVxVy x y) s = .next (nextPc (setReg x (getReg y s) s)) := by
  simp only [exec, execLdVxVy, Instr.wellFormed, h, if_true]

theorem exec_shrVxVy (x y : RegIdx) (s : State) :
    exec (.shrVxVy x y) s =
      .next (nextPc (setFlagAndReg x (shrFlag (shiftOperand x y s)) (shiftOperand x y s >>> 1) s)) := rfl

theorem exec_shlVxVy (x y : RegIdx) (s : State) :
    exec (.shlVxVy x y) s =
      .next (nextPc (setFlagAndReg x (shlFlag s.config (shiftOperand x y s)) (shiftOperand x y s <<< 1) s)) := rfl

theorem exec_rndVxKk (x : RegIdx) (kk : Byte) (s : State) :
    exec (.rndVxKk x kk) s = .next (nextPc (setReg x (randomDraw s &&& kk) (advanceDraws s))) := rfl

/-! ### The obligations -/

/-- Settles O37: the halved source is written last, and its bit 0 is the flag. -/
theorem shiftRightHalvesTheSource : Obligations.ShiftRightHalvesTheSource := by
  intro x y s
  refine ⟨_, exec_shrVxVy x y s, ?_, sameRegsBut_nextPc_setFlagAndReg x _ _ s,
    pcAdvanced_nextPc_setFlagAndReg x _ _ s, onlyRegsAndPc_nextPc_setFlagAndReg x _ _ s⟩
  rintro b hb
  rw [← shiftOperand_eq] at hb
  subst hb
  simp only [getReg_nextPc]
  constructor
  · rw [getReg_setFlagAndReg_same, byte_ushiftRight_one_toNat]
  · intro hx
    rw [getReg_flagReg_setFlagAndReg x _ _ s hx, flagByte_shrFlag_toNat]

/-- Settles O38: the doubled source is written last, and the flag is the bit that the parameter names. -/
theorem shiftLeftDoublesTheSource : Obligations.ShiftLeftDoublesTheSource := by
  intro x y s
  refine ⟨_, exec_shlVxVy x y s, ?_, sameRegsBut_nextPc_setFlagAndReg x _ _ s,
    pcAdvanced_nextPc_setFlagAndReg x _ _ s, onlyRegsAndPc_nextPc_setFlagAndReg x _ _ s⟩
  rintro b hb
  rw [← shiftOperand_eq] at hb
  subst hb
  simp only [getReg_nextPc]
  constructor
  · rw [getReg_setFlagAndReg_same, byte_shiftLeft_one_toNat]
  · intro hx
    rw [getReg_flagReg_setFlagAndReg x _ _ s hx, flagByte_shlFlag_toNat]

/-- Settles O32: the gate is the instruction's legality, which `exec` checks before the copy (log entry 5). -/
theorem registerCopyIsGated : Obligations.RegisterCopyIsGated := by
  intro x y s
  constructor
  · intro h
    exact ⟨_, exec_ldVxVy_of_enabled x y h, getReg_setReg_same x _ s, sameRegsBut_nextPc_setReg x _ s,
      pcAdvanced_nextPc_setReg x _ s, onlyRegsAndPc_nextPc_setReg x _ s⟩
  · intro h
    exact ⟨encode (.ldVxVy x y), exec_eq_unhandledInstruction_iff.2 ⟨h, rfl⟩, formatXYN_toNat 0x8#4 x y 0x0⟩

/-- Settles O33: each operation of words is the operation on their bits, and the meaning is one register write. -/
theorem logicIsBitwiseAndLeavesTheFlag : Obligations.LogicIsBitwiseAndLeavesTheFlag := by
  intro x y s
  refine ⟨⟨_, exec_orVxVy x y s, fun b _ => ?_, sameRegsBut_nextPc_setReg x _ s, pcAdvanced_nextPc_setReg x _ s,
      onlyRegsAndPc_nextPc_setReg x _ s⟩,
    ⟨_, exec_andVxVy x y s, fun b _ => ?_, sameRegsBut_nextPc_setReg x _ s, pcAdvanced_nextPc_setReg x _ s,
      onlyRegsAndPc_nextPc_setReg x _ s⟩,
    ⟨_, exec_xorVxVy x y s, fun b _ => ?_, sameRegsBut_nextPc_setReg x _ s, pcAdvanced_nextPc_setReg x _ s,
      onlyRegsAndPc_nextPc_setReg x _ s⟩⟩
  · rw [getReg_nextPc, getReg_setReg_same, BitVec.getLsbD_or]
  · rw [getReg_nextPc, getReg_setReg_same, BitVec.getLsbD_and]
  · rw [getReg_nextPc, getReg_setReg_same, BitVec.getLsbD_xor]

/-- Settles O39: the draw is masked bit by bit, whatever byte it is, and one register and the count of draws are
written. -/
theorem randomIsADrawMaskedByTheImmediate : Obligations.RandomIsADrawMaskedByTheImmediate := by
  intro x kk s
  refine ⟨_, exec_rndVxKk x kk s, fun b _ => ?_, fun z hz => getReg_setReg_other _ (advanceDraws s) hz,
    pcAdvanced_nextPc_setReg x _ (advanceDraws s), rfl, rfl, rfl, ⟨rfl, rfl⟩, ⟨rfl, rfl⟩, ⟨rfl, rfl, rfl⟩,
    fun _ => rfl, fun _ => rfl⟩
  rw [getReg_nextPc, getReg_setReg_same, BitVec.getLsbD_and]
  rfl

end Sys2Proof.Proofs
end

section
/-! The proofs about the glyph address and the register blocks (spec/43_address_memory.md). -/

namespace Sys2Proof.Proofs

open Sys2Proof.Machine

theorem effectiveAddr_of_i_eq {s u : State} (h : u.i = s.i) (k : Nat) : effectiveAddr u k = effectiveAddr s k := by
  simp only [effectiveAddr, h]

/-- A byte read sees memory and the parameters alone. -/
theorem readByte_congr {t u : State} (hmem : u.mem = t.mem) (hconfig : u.config = t.config) (a : Nat) :
    readByte a u = readByte a t := by
  simp only [readByte, hmem, hconfig]

/-- Register `k` of a stored block stands at `I + k`. -/
theorem readByte_nextPc_writeBytes_regBlock {x k : RegIdx} (hk : k ≤ x) (s : State) :
    readByte (effectiveAddr s k.val) (nextPc (writeBytes (effectiveAddr s 0) (regBlock x s) s)) = getReg k s := by
  have hkx : k.val ≤ x.val := hk
  have hlen := regBlock_length x s
  rw [readByte_nextPc_writeBytes_at (regBlock x s) s (by omega) (by omega), regBlock_getElem]

theorem getReg_loadRegBlock_of_le {k x : RegIdx} (hk : k ≤ x) (s : State) :
    getReg k (loadRegBlock x s) = readByte (effectiveAddr s k.val) s := by
  rw [getReg_loadRegBlock, if_pos hk]

theorem pcAdvanced_nextPc_loadRegBlock (x : RegIdx) (s : State) : PcAdvanced 2 s (nextPc (loadRegBlock x s)) := by
  have h := pcAdvanced_nextPc (loadRegBlock x s)
  rwa [PcAdvanced, loadRegBlock_pc] at h

theorem onlyRegsAndPc_nextPc_loadRegBlock (x : RegIdx) (s : State) : OnlyRegsAndPc s (nextPc (loadRegBlock x s)) := by
  simp [OnlyRegsAndPc, SameTimers, SameStack, SameLatch, SameMemory, SameDisplay, SameInputs]

/-! ### The meanings of the instructions -/

theorem exec_ldFVx (x : RegIdx) (s : State) : exec (.ldFVx x) s = .next (nextPc (setI (5 * regAsWord x s) s)) := rfl

theorem exec_ldMemIVx (x : RegIdx) (s : State) :
    exec (.ldMemIVx x) s = .next (nextPc (writeBytes (effectiveAddr s 0) (regBlock x s) s)) := rfl

theorem exec_ldVxMemI (x : RegIdx) (s : State) : exec (.ldVxMemI x) s = .next (nextPc (loadRegBlock x s)) := rfl

/-! ### The obligations -/

/-- Settles O44: the stored block is the registers in order, and it is short enough not to meet itself at the wrap. -/
theorem blockStoreWritesRegistersThroughX : Obligations.BlockStoreWritesRegistersThroughX := by
  intro x s
  refine ⟨_, exec_ldMemIVx x s, fun k hk => readByte_nextPc_writeBytes_regBlock hk s, fun a ha => ?_,
    pcAdvanced_nextPc_writeBytes _ s _, onlyMemoryAndPc_nextPc_writeBytes _ s _⟩
  refine readByte_nextPc_writeBytes_other _ s fun k hk => ha k ?_
  rw [regBlock_length] at hk
  omega

/-- Settles O45: the block load writes the registers up to x in one move. -/
theorem blockLoadReadsRegistersThroughX : Obligations.BlockLoadReadsRegistersThroughX := by
  intro x s
  refine ⟨_, exec_ldVxMemI x s, fun k hk => ?_, fun z hz => ?_, pcAdvanced_nextPc_loadRegBlock x s,
    onlyRegsAndPc_nextPc_loadRegBlock x s⟩
  · rw [getReg_nextPc, getReg_loadRegBlock_of_le hk]
  · rw [getReg_nextPc, getReg_loadRegBlock, if_neg hz]

/-- Settles O46: the load reads each register back from the address the store put it at. -/
theorem blockLoadRestoresABlockStore : Obligations.BlockLoadRestoresABlockStore := by
  intro x s t u hstore hi hmem hconfig
  rw [exec_ldMemIVx] at hstore
  cases hstore
  refine ⟨_, exec_ldVxMemI x u, fun k hk => ?_⟩
  calc getReg k (nextPc (loadRegBlock x u))
      = readByte (effectiveAddr u k.val) u := by rw [getReg_nextPc, getReg_loadRegBlock_of_le hk]
    _ = readByte (effectiveAddr s k.val) (nextPc (writeBytes (effectiveAddr s 0) (regBlock x s) s)) := by
        rw [effectiveAddr_of_i_eq hi, readByte_congr hmem hconfig]
    _ = getReg k s := readByte_nextPc_writeBytes_regBlock hk s

/-- Settles O42: five times the greatest register value fits 16 bits. -/
theorem loadGlyphAddressIsFiveTimes : Obligations.LoadGlyphAddressIsFiveTimes := by
  intro x s
  have hreg := (getReg x s).isLt
  refine ⟨_, exec_ldFVx x s, ?_, pcAdvanced_nextPc_setI _ s, onlyIAndPc_nextPc_setI _ s⟩
  rw [nextPc_i, setI_i, BitVec.toNat_mul, regAsWord_toNat]
  exact Nat.mod_eq_of_lt (by simp; omega)

end Sys2Proof.Proofs
end

section
/-! The proofs about DRW (spec/44_display.md R211 to R215). -/

namespace Sys2Proof.Proofs

open Sys2Proof.Machine

/-! ### The blit of a draw -/

section
variable (x y : RegIdx) (n : RowCount) (s : State)

/-- The cells that the blit visits are those that the sprite covers (R211, R212). -/
theorem mem_spriteCells_iff_spriteCovers (j : Nat) :
    j ∈ spriteCells (getReg x s).toNat (getReg y s).toNat n.val s ↔ SpriteCovers x y n s j :=
  mem_spriteCells _ _ _ s j

theorem lit_drawBlit_of_covers {j : Nat} (hj : j < 4096) (h : SpriteCovers x y n s j) :
    (drawBlit x y n s).1.lit j = !s.disp.lit j := by
  rw [drawBlit, blit, foldl_plot_fst _ _ _ (spriteCells_nodup ..),
    decide_eq_true ⟨(mem_spriteCells_iff_spriteCovers x y n s j).2 h, hj⟩, Bool.xor_true]

theorem lit_drawBlit_of_not_covers {j : Nat} (h : ¬ SpriteCovers x y n s j) :
    (drawBlit x y n s).1.lit j = s.disp.lit j := by
  rw [drawBlit, blit, foldl_plot_fst _ _ _ (spriteCells_nodup ..),
    decide_eq_false fun hc => h ((mem_spriteCells_iff_spriteCovers x y n s j).1 hc.1), Bool.xor_false]

/-- The collision is a covered cell that was lit; a cell past the buffer is never lit (R214). -/
theorem drawBlit_snd_eq_true_iff :
    (drawBlit x y n s).2 = true ↔ ∃ j < 4096, SpriteCovers x y n s j ∧ s.disp.lit j = true := by
  rw [drawBlit, blit, foldl_plot_snd _ _ _ (spriteCells_nodup ..), Bool.false_or, decide_eq_true_eq]
  simp only [mem_spriteCells_iff_spriteCovers]
  constructor
  · rintro ⟨j, hcov, hlit⟩
    refine ⟨j, ?_, hcov, hlit⟩
    by_contra hj
    rw [Display.lit_of_ge _ hj] at hlit
    cases hlit
  · rintro ⟨j, _, hcov, hlit⟩
    exact ⟨j, hcov, hlit⟩

theorem exec_drwVxVyN :
    exec (.drwVxVyN x y n) s =
      .next (nextPc (setReg flagReg (flagByte (drawBlit x y n s).2) (setDisp (drawBlit x y n s).1 s))) := rfl

end

/-- A sprite's cells depend on the two coordinate registers, `I` and memory. -/
theorem spriteCovers_congr {x y : RegIdx} {n : RowCount} {s t : State} (hx : getReg x t = getReg x s)
    (hy : getReg y t = getReg y s) (hi : t.i = s.i) (hmem : SameMemory s t) (j : Nat) :
    SpriteCovers x y n t j ↔ SpriteCovers x y n s j := by
  simp only [SpriteCovers, hx, hy, effectiveAddr_of_i_eq hi, hmem _]

/-! ### The obligations -/

/-- Settles O48: the blit inverts the covered cells of the buffer, each once, and reports whether one of them was
lit. -/
theorem drawInvertsTheCoveredCells : Obligations.DrawInvertsTheCoveredCells := by
  intro x y n s
  refine ⟨_, exec_drwVxVyN x y n s, fun j hj => ⟨lit_drawBlit_of_covers x y n s hj, lit_drawBlit_of_not_covers x y n s⟩,
    fun hcoll => ?_, fun hcoll => ?_, fun z hz => getReg_setReg_other _ (setDisp _ s) hz, rfl, ⟨rfl, rfl⟩, ⟨rfl, rfl⟩,
    ⟨rfl, rfl, rfl⟩, fun _ => rfl, ⟨rfl, rfl⟩, pcAdvanced_nextPc_setReg _ _ (setDisp _ s)⟩
  · rw [getReg_nextPc, getReg_setReg_same, (drawBlit_snd_eq_true_iff x y n s).2 hcoll]
    rfl
  · rw [← drawBlit_snd_eq_true_iff, Bool.not_eq_true] at hcoll
    rw [getReg_nextPc, getReg_setReg_same, hcoll]
    rfl

/-- Settles O49: the first draw writes neither what the sprite's cells depend on, so the second covers the same cells,
inverts them back, and meets each cell that the first one lit. -/
theorem drawingTwiceRestoresTheDisplay : Obligations.DrawingTwiceRestoresTheDisplay := by
  intro x y n s t u hx hy hst htu
  obtain ⟨t', ht', hcells, _, _, hregs, hi, _, _, _, hmem, _⟩ := drawInvertsTheCoveredCells x y n s
  obtain rfl : t' = t := by rw [ht'] at hst; cases hst; rfl
  obtain ⟨u', hu', hcells', hcoll', _⟩ := drawInvertsTheCoveredCells x y n t'
  obtain rfl : u' = u := by rw [hu'] at htu; cases htu; rfl
  simp only [spriteCovers_congr (hregs x hx) (hregs y hy) hi hmem] at hcells' hcoll'
  constructor
  · intro j
    by_cases hj : j < 4096
    · obtain ⟨hinv, hsame⟩ := hcells j hj
      obtain ⟨hinv', hsame'⟩ := hcells' j hj
      by_cases hcov : SpriteCovers x y n s j
      · rw [hinv' hcov, hinv hcov, Bool.not_not]
      · rw [hsame' hcov, hsame hcov]
    · rw [Display.lit_of_ge _ hj, Display.lit_of_ge _ hj]
  · rintro ⟨j, hj, hcov, hunlit⟩
    refine hcoll' ⟨j, hj, hcov, ?_⟩
    rw [(hcells j hj).1 hcov, hunlit, Bool.not_false]

end Sys2Proof.Proofs
end

section
/-! The proofs about what a step may change (spec/10_state.md, spec/20_memory.md section 4, spec/44_display.md R215). -/

namespace Sys2Proof.Proofs

open Sys2Proof.Machine

/-! ### What an instruction may write -/

/-- The effect of each instruction on the state it runs in, by what it may write: most of them write registers and `pc`
alone, and for every other part of the state that some instruction writes there is a case that names the writers. -/
inductive Effect (s : State) : Instr → State → Prop
  | registers {i : Instr} (v : Vector Byte 16) (pc : Word) (draws : Nat) :
      Effect s i { s with v := v, pc := pc, draws := draws }
  | display {i : Instr} (v : Vector Byte 16) (d : Display) (pc : Word) (hi : i = .cls ∨ ∃ x y n, i = .drwVxVyN x y n) :
      Effect s i { s with v := v, disp := d, pc := pc }
  | memory {i : Instr} (a : Nat) (bs : List Byte) (hi : (∃ x, i = .ldBVx x) ∨ ∃ x, i = .ldMemIVx x) :
      Effect s i (nextPc (writeBytes a bs s))
  | address {i : Instr} (w : Word) (hi : (∃ nnn, i = .ldINnn nnn) ∨ (∃ x, i = .addIVx x) ∨ ∃ x, i = .ldFVx x) :
      Effect s i (nextPc (setI w s))
  | delayTimer (x : RegIdx) (b : Byte) : Effect s (.ldDtVx x) (nextPc (setDt b s))
  | soundTimer (x : RegIdx) (b : Byte) : Effect s (.ldStVx x) (nextPc (setSt b s))
  | wait (x : RegIdx) : Effect s (.ldVxK x) (nextPc (beginWait x s))
  | call (nnn : Addr12) (h : s.sp.val < 16) : Effect s (.call nnn) (setPc (addrOperand nnn) (pushed s.pc s h))
  | ret (w : Word) (h : 0 < s.sp.val) : Effect s .ret (setPc w (popped s h))

/-- What an instruction that goes on has done. -/
theorem effect_of_exec {i : Instr} {s t : State} (h : exec i s = .next t) : Effect s i t := by
  cases i
  case ret => obtain ⟨hs, rfl⟩ := exec_ret_next h; exact .ret _ hs
  case call nnn => obtain ⟨hs, rfl⟩ := exec_call_next h; exact .call nnn hs
  case ldVxVy x y =>
    simp only [exec, execLdVxVy] at h
    split_ifs at h
    · cases h; exact .registers ..
    · cases h
  case cls => cases h; exact .display _ _ _ (.inl rfl)
  case drwVxVyN x y n => cases h; exact .display _ _ _ (.inr ⟨x, y, n, rfl⟩)
  case ldBVx x => cases h; exact .memory _ _ (.inl ⟨x, rfl⟩)
  case ldMemIVx x => cases h; exact .memory _ _ (.inr ⟨x, rfl⟩)
  case ldINnn nnn => cases h; exact .address _ (.inl ⟨nnn, rfl⟩)
  case addIVx x => cases h; exact .address _ (.inr (.inl ⟨x, rfl⟩))
  case ldFVx x => cases h; exact .address _ (.inr (.inr ⟨x, rfl⟩))
  case ldDtVx x => cases h; exact .delayTimer ..
  case ldStVx x => cases h; exact .soundTimer ..
  case ldVxK x => cases h; exact .wait ..
  case ldVxMemI x =>
    rw [exec_ldVxMemI] at h
    obtain rfl := Host.Outcome.next.inj h
    unfold loadRegBlock
    exact .registers ..
  all_goals
    cases h
    exact .registers ..

/-- What a step that goes on has done: nothing while suspended, else what the fetched instruction does. -/
theorem effect_of_step {s t : State} (h : step s = .next t) :
    t = s ∨ s.waiting = false ∧ ∃ i, decode (fetchWord s) = .ok i ∧ Effect s i t := by
  rcases step_next h with ⟨_, hts⟩ | ⟨hw, i, hd, hi⟩
  · exact .inl hts
  · exact .inr ⟨hw, i, hd, effect_of_exec hi⟩

/-! ### The obligations about steps -/

/-- Settles O14: of the effects only a block of stored bytes touches memory, and storing bytes keeps the form. -/
theorem stepKeepsCanonicalMemory : Obligations.StepKeepsCanonicalMemory := by
  intro s t hinv h
  rcases effect_of_step h with rfl | ⟨_, i, _, heff⟩
  · exact hinv
  · cases heff with
    | memory a bs => exact wf_writeBytes bs a hinv
    | _ => exact hinv

/-- Settles O17, by the effects: CLS and DRW are those that may write the display. -/
theorem onlyClearAndDrawChangeTheDisplay : Obligations.OnlyClearAndDrawChangeTheDisplay := by
  intro s t j h hne
  rcases effect_of_step h with rfl | ⟨_, i, hd, heff⟩
  · exact absurd rfl hne
  · cases heff with
    | display v d pc hi =>
      rcases hi with rfl | ⟨x, y, n, rfl⟩
      · exact .inl hd
      · exact .inr ⟨x, y, n, hd⟩
    | memory a bs => exact absurd (by simp) hne
    | _ => exact absurd rfl hne

/-- Settles O18, by the effects: LD B,Vx and LD [I],Vx are those that may write memory. -/
theorem onlyBcdAndBlockStoreChangeMemory : Obligations.OnlyBcdAndBlockStoreChangeMemory := by
  intro s t a h hne
  rcases effect_of_step h with rfl | ⟨_, i, hd, heff⟩
  · exact absurd rfl hne
  · cases heff with
    | memory _ _ hi =>
      rcases hi with ⟨x, rfl⟩ | ⟨x, rfl⟩
      · exact .inl ⟨x, hd⟩
      · exact .inr ⟨x, hd⟩
    | _ => exact absurd rfl hne

/-- Settles O19, by the effects: CALL writes the entry at the old pointer, RET writes the pointer alone. -/
theorem onlyCallAndRetChangeTheStack : Obligations.OnlyCallAndRetChangeTheStack := by
  intro s t h
  rcases effect_of_step h with rfl | ⟨hw, i, hd, heff⟩
  · exact .inr (.inr ⟨rfl, rfl⟩)
  · cases heff with
    | call nnn hs => exact .inl ⟨nnn, hd, hw, rfl, fun k hk hne => Vector.getElem_set_ne hs hk hne.symm⟩
    | ret _ hs => exact .inr (.inl ⟨hd, hw, Nat.sub_add_cancel hs, rfl⟩)
    | memory a bs => exact .inr (.inr ⟨writeBytes_stack a bs s, writeBytes_sp a bs s⟩)
    | _ => exact .inr (.inr ⟨rfl, rfl⟩)

/-- Settles O20, by the effects: none writes a key or a parameter, and LD Vx,K alone writes the wait. -/
theorem stepsLeaveTheKeyLatchButForWaits : Obligations.StepsLeaveTheKeyLatchButForWaits := by
  intro s t h
  rcases effect_of_step h with rfl | ⟨_, i, hd, heff⟩
  · exact ⟨rfl, rfl, .inl ⟨rfl, rfl⟩⟩
  · cases heff with
    | wait x => exact ⟨rfl, rfl, .inr ⟨x, hd, rfl, rfl⟩⟩
    | memory a bs =>
      exact ⟨writeBytes_key a bs s, writeBytes_config a bs s,
        .inl ⟨writeBytes_waiting a bs s, writeBytes_waitreg a bs s⟩⟩
    | _ => exact ⟨rfl, rfl, .inl ⟨rfl, rfl⟩⟩

/-- Settles O21, by the effects: each of the three has its own writers. -/
theorem onlyTheirInstructionsWriteTimersAndAddress : Obligations.OnlyTheirInstructionsWriteTimersAndAddress := by
  intro s t h
  rcases effect_of_step h with rfl | ⟨_, i, hd, heff⟩
  · exact ⟨absurd rfl, absurd rfl, absurd rfl⟩
  · cases heff with
    | delayTimer x b => exact ⟨fun _ => ⟨x, hd⟩, absurd rfl, absurd rfl⟩
    | soundTimer x b => exact ⟨absurd rfl, fun _ => ⟨x, hd⟩, absurd rfl⟩
    | address w hi =>
      refine ⟨absurd rfl, absurd rfl, fun _ => ?_⟩
      rcases hi with ⟨nnn, rfl⟩ | ⟨x, rfl⟩ | ⟨x, rfl⟩
      · exact .inl ⟨nnn, hd⟩
      · exact .inr (.inl ⟨x, hd⟩)
      · exact .inr (.inr ⟨x, hd⟩)
    | memory a bs => exact ⟨absurd (writeBytes_dt a bs s), absurd (writeBytes_st a bs s), absurd (writeBytes_i a bs s)⟩
    | _ => exact ⟨absurd rfl, absurd rfl, absurd rfl⟩

end Sys2Proof.Proofs
end

section
/-! The proofs about the host's operations and sessions (spec/60_exceptions.md section 3,
spec/70_reset_and_hazards.md). -/

namespace Sys2Proof.Proofs

open Sys2Proof.Machine

/-! ### Sessions -/

/-- What every operation of a session keeps, the session keeps. -/
theorem session_keeps {P : State → Prop} {ops : List HostOp}
    (hop : ∀ op ∈ ops, ∀ s t, P s → perform op s = .next t → P t) :
    ∀ {s t : State}, P s → session ops s = .next t → P t := by
  induction ops with
  | nil =>
    intro s t hs h
    cases h
    exact hs
  | cons op ops ih =>
    intro s t hs h
    simp only [session] at h
    split at h
    case h_1 u hu =>
      have hu : P u := hop op List.mem_cons_self s u hs hu
      exact ih (fun op' hmem => hop op' (List.mem_cons_of_mem op hmem)) hu h
    all_goals cases h

/-! ### A key event -/

/-- What a key event can do: nothing at a duplicate, a latched release or press, and a press that ends a wait (R263). -/
theorem setKey_cases (k : KeyIdx) (p : Bool) (s : State) :
    (s.key[k] = p ∧ setKey k p s = s) ∨
    (s.key[k] ≠ p ∧ (p && s.waiting) = false ∧ setKey k p s = latchKey k p s) ∨
    (s.key[k] = false ∧ p = true ∧ s.waiting = true ∧ setKey k p s = resolveWait k (latchKey k p s)) := by
  unfold setKey
  split_ifs with hdup hpress
  · exact .inl ⟨hdup, rfl⟩
  · simp only [Bool.and_eq_true] at hpress
    obtain ⟨rfl, hw⟩ := hpress
    exact .inr (.inr ⟨by simpa using hdup, rfl, hw, rfl⟩)
  · exact .inr (.inl ⟨hdup, by simpa using hpress, rfl⟩)

theorem setKey_mem (k : KeyIdx) (p : Bool) (s : State) : (setKey k p s).mem = s.mem := by
  rcases setKey_cases k p s with ⟨_, h⟩ | ⟨_, _, h⟩ | ⟨_, _, _, h⟩ <;> rw [h] <;> rfl

theorem setKey_config (k : KeyIdx) (p : Bool) (s : State) : (setKey k p s).config = s.config := by
  rcases setKey_cases k p s with ⟨_, h⟩ | ⟨_, _, h⟩ | ⟨_, _, _, h⟩ <;> rw [h] <;> rfl

/-! ### Loading an image -/

theorem load_of_le {image : List Byte} (h : image.length ≤ maxImage) (s : State) :
    load image s = .next (writeBytes 0x200 image (resetOp s)) :=
  if_neg (Nat.not_lt.2 h)

theorem load_next {image : List Byte} {s t : State} (h : load image s = .next t) :
    t = writeBytes 0x200 image (resetOp s) := by
  unfold load at h
  split_ifs at h
  · cases h
  · cases h
    rfl

theorem inv_resetOp {s : State} (hinv : Machine.Inv s) : Machine.Inv (resetOp s) :=
  wf_resetMemory s.config.glyphTable hinv

/-- Every operation keeps the canonical form of memory and the parameters. -/
theorem perform_keeps_inv_config {op : HostOp} {s t : State} (hinv : Machine.Inv s) (h : perform op s = .next t) :
    Machine.Inv t ∧ t.config = s.config := by
  cases op with
  | step =>
    obtain ⟨_, hconfig, _⟩ := stepsLeaveTheKeyLatchButForWaits s t h
    exact ⟨stepKeepsCanonicalMemory s t hinv h, hconfig⟩
  | tick =>
    cases h
    exact ⟨hinv, rfl⟩
  | setKey k p =>
    cases h
    rw [Machine.Inv, setKey_mem, setKey_config]
    exact ⟨hinv, rfl⟩
  | load image =>
    obtain rfl := load_next h
    exact ⟨wf_writeBytes image 0x200 (inv_resetOp hinv), writeBytes_config 0x200 image _⟩
  | reset =>
    cases h
    exact ⟨inv_resetOp hinv, rfl⟩

/-- Settles O16, by induction on the session: each operation keeps the form and the parameters. -/
theorem sessionsKeepCanonicalMemoryAndParameters : Obligations.SessionsKeepCanonicalMemoryAndParameters := by
  intro ops s t hinv h
  refine session_keeps (P := fun u => Machine.Inv u ∧ u.config = s.config) (fun op _ u v hu hv => ?_) ⟨hinv, rfl⟩ h
  obtain ⟨hinvu, hconfigu⟩ := hu
  obtain ⟨hinvv, hconfigv⟩ := perform_keeps_inv_config hinvu hv
  exact ⟨hinvv, hconfigv.trans hconfigu⟩

end Sys2Proof.Proofs
end

section
/-! The proofs about a word placed for the next step (log entry 25) and about refusals (spec/40_step_cycle.md). -/

namespace Sys2Proof.Proofs

open Sys2Proof.Machine

/-- A number of 16 bits is its own word. -/
theorem tableWord_16_toNat {w : Nat} (hw : w < 65536) : (tableWord 16 w).toNat = w := by
  have hmod : w % 2 ^ 16 = w := Nat.mod_eq_of_lt hw
  rw [tableWord, BitVec.toNat_ofNat, hmod, hmod]

/-- The two bytes are stored where the next step fetches them, the high one first (R63). -/
theorem fetchWord_withFetchWord (s : State) (nbits w : Nat) :
    fetchWord (s.withFetchWord nbits w) = tableWord nbits w := by
  have hpc : (s.withFetchWord nbits w).pc = s.pc := writeBytes_pc ..
  have hhigh : readByte s.pc.toNat (s.withFetchWord nbits w) = highByte (tableWord nbits w) :=
    readByte_writeBytes_at [highByte _, lowByte _] s.pc.toNat _ 0 (by simp) (by simp)
  have hlow : readByte (s.pc.toNat + 1) (s.withFetchWord nbits w) = lowByte (tableWord nbits w) :=
    readByte_writeBytes_at [highByte _, lowByte _] s.pc.toNat _ 1 (by simp) (by simp)
  rw [fetchWord, hpc, hhigh, hlow, wordOfBytes_high_low]

theorem readByte_withFetchWord_other {s : State} {nbits w a : Nat} (hhigh : a % 4096 ≠ s.pc.toNat % 4096)
    (hlow : a % 4096 ≠ (s.pc.toNat + 1) % 4096) : readByte a (s.withFetchWord nbits w) = readByte a s := by
  refine readByte_writeBytes_other _ _ a { s with waiting := false } fun k hk => ?_
  match k, hk with
  | 0, _ => exact hhigh
  | 1, _ => exact hlow

/-- Settles O13: the placement stores the word's two bytes at `pc`, and storing bytes writes nothing but memory. -/
theorem placedWordIsFetchedNext : Obligations.PlacedWordIsFetchedNext := by
  intro s w hw
  have hfetch : fetchedNumber (s.withFetchWord 16 w) = w := by
    rw [← fetchWord_toNat, fetchWord_withFetchWord, tableWord_16_toNat hw]
  refine ⟨hfetch, writeBytes_waiting .., fun a => readByte_withFetchWord_other, fun z => getReg_writeBytes _ _ _ z,
    writeBytes_i .., writeBytes_pc .., ⟨writeBytes_dt .., writeBytes_st ..⟩, ⟨writeBytes_stack .., writeBytes_sp ..⟩,
    fun j => congrArg (Display.lit · j) (writeBytes_disp ..), writeBytes_key .., writeBytes_waitreg ..,
    writeBytes_config .., writeBytes_draws ..⟩

/-- Settles O12: a step answers with what an instruction answers, a load with a state or LoadOverflow, and the other
operations with a state. -/
theorem noOperationIsRefused : Obligations.NoOperationIsRefused := by
  intro op s r h
  cases op with
  | step =>
    rcases step_cases s with ⟨_, hs⟩ | ⟨_, _, hs⟩ | ⟨_, i, _, hs⟩
    · cases hs.symm.trans h
    · cases hs.symm.trans h
    · exact exec_not_refused i s r (hs.symm.trans h)
  | load image =>
    simp only [perform, load] at h
    split_ifs at h
    all_goals cases h
  | tick | setKey _ _ | reset => cases h

end Sys2Proof.Proofs
end

section
/-! The proofs about waiting for a key and about key events (spec/45_keypad_timers.md R233,
spec/60_exceptions.md R263). -/

namespace Sys2Proof.Proofs

open Sys2Proof.Machine

theorem exec_ldVxK (x : RegIdx) (s : State) : exec (.ldVxK x) s = .next (nextPc (beginWait x s)) := rfl

theorem keyState_latchKey (j k : KeyIdx) (p : Bool) (s : State) :
    keyState j (latchKey k p s) = if j = k then p else keyState j s := by
  simp only [keyState, latchKey_key, Fin.getElem_fin, Vector.getElem_set, Fin.ext_iff, eq_comm]

/-- Settles O56: steps, ticks and releases keep the wait, its target and `pc`, by induction on the session; the press
then writes the target and clears the flag. -/
theorem onlyAFreshPressResolvesAWait : Obligations.OnlyAFreshPressResolvesAWait := by
  intro x s t u ops k hwait hops hsession
  rw [exec_ldVxK] at hwait
  cases hwait
  have hkeep : ∀ op ∈ ops, ∀ v w : State, (v.waiting = true ∧ v.waitreg = x ∧ PcAdvanced 2 s v) →
      perform op v = .next w → w.waiting = true ∧ w.waitreg = x ∧ PcAdvanced 2 s w := by
    intro op hop v w hv hw
    rcases hops op hop with rfl | rfl | ⟨j, rfl⟩
    · cases (step_of_waiting hv.1).symm.trans hw
      exact hv
    · cases hw
      exact hv
    · cases hw
      rcases setKey_cases j false v with ⟨_, h⟩ | ⟨_, _, h⟩ | ⟨_, hfalse, _⟩
      · rwa [h]
      · rw [h]
        exact hv
      · cases hfalse
  obtain ⟨hu, hreg, hpc⟩ := session_keeps hkeep ⟨rfl, rfl, pcAdvanced_nextPc (beginWait x s)⟩ hsession
  refine ⟨hu, hpc, fun hk => ⟨_, rfl, ?_⟩⟩
  rcases setKey_cases k true u with ⟨hdup, _⟩ | ⟨_, hno, _⟩ | ⟨_, _, _, h⟩
  · cases hdup.symm.trans hk
  · rw [hu] at hno
    cases hno
  · rw [h]
    refine ⟨rfl, ?_⟩
    rw [getReg_resolveWait, latchKey_waitreg, if_pos hreg.symm, BitVec.toNat_ofNat]
    omega

/-- Settles O55, by the three things a key event can do. -/
theorem keyEventLatchesAndResolvesWaits : Obligations.KeyEventLatchesAndResolvesWaits := by
  intro k p s
  rcases setKey_cases k p s with ⟨hdup, h⟩ | ⟨hfresh, hno, h⟩ | ⟨hkey, rfl, hw, h⟩
  · refine ⟨s, congrArg _ h, fun _ => rfl, fun j => ?_, fun z => ?_, ?_, rfl, rfl, rfl, ⟨rfl, rfl⟩, ⟨rfl, rfl⟩,
      fun _ => rfl, fun _ => rfl, ⟨rfl, rfl⟩⟩
    · split_ifs with hj
      · rw [hj]
        exact hdup
      · rfl
    · rw [if_neg]
      rintro ⟨hkey, hp, _⟩
      simp [hkey, hp] at hdup
    · rw [hdup, Bool.and_not_self, Bool.not_false, Bool.and_true]
  · refine ⟨latchKey k p s, congrArg _ h, fun hdup => absurd hdup hfresh, fun j => keyState_latchKey j k p s,
      fun z => ?_, ?_, rfl, rfl, rfl, ⟨rfl, rfl⟩, ⟨rfl, rfl⟩, fun _ => rfl, fun _ => rfl, ⟨rfl, rfl⟩⟩
    · rw [if_neg, getReg_latchKey]
      rintro ⟨_, hp, hw, _⟩
      simp [hp, hw] at hno
    · cases p with
      | false => rw [Bool.false_and, Bool.not_false, Bool.and_true, latchKey_waiting]
      | true =>
        have hw : s.waiting = false := hno
        rw [latchKey_waiting, hw, Bool.false_and]
  · refine ⟨resolveWait k (latchKey k true s), congrArg _ h, fun hdup => ?_, fun j => keyState_latchKey j k true s,
      fun z => ?_, ?_, rfl, rfl, rfl, ⟨rfl, rfl⟩, ⟨rfl, rfl⟩, fun _ => rfl, fun _ => rfl, ⟨rfl, rfl⟩⟩
    · cases hdup.symm.trans hkey
    · by_cases hz : z = s.waitreg <;> simp [getReg_resolveWait, hkey, hw, hz]
    · simp [hkey, hw]

/-- Settles O53: the wait is begun by the two fields of R29, and no other part of the state sees them. -/
theorem waitForKeyBeginsAWait : Obligations.WaitForKeyBeginsAWait := fun x s =>
  ⟨_, exec_ldVxK x s, rfl, rfl, rfl, pcAdvanced_nextPc (beginWait x s), fun _ => rfl, rfl, ⟨rfl, rfl⟩, ⟨rfl, rfl⟩,
    fun _ => rfl, fun _ => rfl, ⟨rfl, rfl⟩⟩

end Sys2Proof.Proofs
end

section
/-! The proofs about power-on, reset and load (spec/70_reset_and_hazards.md, spec/10_state.md R36). -/

namespace Sys2Proof.Proofs

open Sys2Proof.Machine

/-! ### The contents after power-on -/

theorem unlisted_of_lt (g : Vector Byte 80) {a : Nat} (h : a < 80) : Memory.unlisted g a = g[a] := dif_pos h

theorem unlisted_of_ge (g : Vector Byte 80) {a : Nat} (h : 80 ≤ a) : Memory.unlisted g a = 0 :=
  dif_neg (Nat.not_lt.2 h)

section
variable (c : Config)

theorem readByte_powerOn {a : Nat} (h : a < 0x1000) :
    readByte a (State.powerOn c) = Memory.unlisted c.glyphTable a := by
  rw [readByte, memIndex_of_lt h]
  rfl

theorem getReg_powerOn (z : RegIdx) : getReg z (State.powerOn c) = 0 := Vector.getElem_replicate _

theorem keyState_powerOn (k : KeyIdx) : keyState k (State.powerOn c) = false := Vector.getElem_replicate _

theorem stack_powerOn {k : Nat} (h : k < 16) : (State.powerOn c).stack[k] = 0 := Vector.getElem_replicate h

theorem lit_powerOn (j : Nat) : (State.powerOn c).disp.lit j = false := Display.lit_blank j

end

/-! ### Reset -/

section
variable (s : State)

theorem resetOp_resetOp : resetOp (resetOp s) = resetOp s := by
  have hmem : resetMemory (resetMemory s.mem) = resetMemory s.mem := by
    simp only [resetMemory, List.filter_filter, Bool.and_self]
  rw [resetOp, resetOp]
  simp only [hmem]
  rfl

theorem readByte_resetOp {a : Nat} (h : a < 0x1000) :
    readByte a (resetOp s) =
      if 80 ≤ a ∧ a < 0x200 then readByte a s else Memory.unlisted s.config.glyphTable a := by
  simp only [readByte, memIndex_of_lt h]
  exact read_resetMemory s.config.glyphTable s.mem a

variable {s}

/-- The glyph table is re-seeded (R300). -/
theorem readByte_resetOp_glyph {a : Nat} (h : a < 80) : readByte a (resetOp s) = s.config.glyphTable[a] := by
  rw [readByte_resetOp s (by omega), if_neg (by omega), unlisted_of_lt _ h]

/-- Low memory past the glyph table is kept (R300). -/
theorem readByte_resetOp_kept {a : Nat} (hlo : 80 ≤ a) (hhi : a < 0x200) : readByte a (resetOp s) = readByte a s := by
  rw [readByte_resetOp s (by omega), if_pos ⟨hlo, hhi⟩]

/-- The program region is zeroed (R300). -/
theorem readByte_resetOp_program {a : Nat} (hlo : 0x200 ≤ a) (hhi : a < 0x1000) : readByte a (resetOp s) = 0 := by
  rw [readByte_resetOp s hhi, if_neg (by omega), unlisted_of_ge _ (by omega)]

end

/-! ### Load -/

/-- Outside the image a loaded block reads as a reset one; the image ends inside the 4096 bytes, so nothing wraps. -/
theorem readByte_load_other {image : List Byte} {s : State} (hlen : image.length ≤ 3584) {a : Nat} (ha : a < 0x1000)
    (hout : a < 0x200 ∨ 0x200 + image.length ≤ a) :
    readByte a (writeBytes 0x200 image (resetOp s)) = readByte a (resetOp s) := by
  refine readByte_writeBytes_other image 0x200 a (resetOp s) fun k hk => ?_
  rw [memIndex_of_lt ha, memIndex_of_lt (by omega)]
  omega

/-! ### The obligations -/

/-- Settles O57: the image is written over a reset block, whose other fields storing bytes leaves. -/
theorem loadPlacesTheImage : Obligations.LoadPlacesTheImage := by
  intro image s hlen
  refine ⟨_, load_of_le hlen s, fun k hk => readByte_writeBytes_at image 0x200 _ k hk (by omega), fun a hlo hhi => ?_,
    fun a h => ?_, fun a hlo hhi => ?_, writeBytes_pc .., writeBytes_sp .., writeBytes_dt .., writeBytes_st ..,
    fun z => ?_, fun j => ?_, writeBytes_i .., fun k => ?_, writeBytes_waiting .., writeBytes_waitreg ..⟩
  · rw [readByte_load_other hlen hhi (.inr hlo), readByte_resetOp_program (by omega) hhi]
  · rw [readByte_load_other hlen (by omega) (.inl (by omega)), readByte_resetOp_glyph h]
  · rw [readByte_load_other hlen (by omega) (.inl hhi), readByte_resetOp_kept hlo hhi]
  · rw [getReg_writeBytes]
    exact getReg_powerOn s.config z
  · rw [writeBytes_disp]
    exact lit_powerOn s.config j
  · rw [keyState, writeBytes_key]
    exact keyState_powerOn s.config k

/-- Settles O58: reset is power-on but for the kept memory, and keeping the kept memory twice is keeping it once. -/
theorem resetIsIdempotentAndKeepsLowMemory : Obligations.ResetIsIdempotentAndKeepsLowMemory := fun s =>
  ⟨resetOp s, rfl, congrArg Host.Outcome.next (resetOp_resetOp s), fun _ => readByte_resetOp_glyph,
    fun _ => readByte_resetOp_kept, fun _ => readByte_resetOp_program, rfl, rfl, fun _ => stack_powerOn s.config, rfl,
    rfl, getReg_powerOn s.config, rfl, lit_powerOn s.config, keyState_powerOn s.config, rfl, rfl, rfl⟩

/-- Settles O15: power-on memory lists no cell. -/
theorem powerOnMemoryIsCanonical : Obligations.PowerOnMemoryIsCanonical := fun _ => rfl

/-- Settles O59: every field is written out at power-on, and memory reads as the unlisted addresses do. -/
theorem resetStateIsAsTabulated : Obligations.ResetStateIsAsTabulated := by
  intro c
  refine ⟨getReg_powerOn c, rfl, rfl, rfl, rfl, rfl, fun _ => stack_powerOn c, keyState_powerOn c, rfl, rfl,
    lit_powerOn c, fun a h => ?_, fun a hlo hhi => ?_⟩
  · rw [readByte_powerOn c (by omega), unlisted_of_lt _ h]
  · rw [readByte_powerOn c hhi, unlisted_of_ge _ hlo]

end Sys2Proof.Proofs
end
